-- ==== Sys2Proof/Word.lean ====
section
/-!
DEFINITION. The bit-vector types of the block (spec/00_scope.md rule R8). Every value is unsigned (rule R9).
-/

namespace Sys2Proof

/-- A byte is 8 bits (R8). -/
abbrev Byte := BitVec 8

/-- A command argument, a wire address and a logical block index are 32 bits each (R8). -/
abbrev Word32 := BitVec 32

/-- A command index is 6 bits, 0 to 63 (R8). -/
abbrev CmdIndex := BitVec 6

/-- A CRC-7 value is 7 bits (R8, R22). -/
abbrev CrcValue := BitVec 7

end Sys2Proof
end

