-- ==== Sys2Proof/Machine/Crc7.lean ====
section
/-!
DEFINITION. The CRC-7 generator (spec/40_crc7.md): the leaf sub-unit, a pure function of a byte sequence.
-/

namespace Sys2Proof.Machine

/-- The generator's constant: x^7 + x^3 + 1 with its x^7 term dropped (R5 CRC7_POLY, R76). -/
def crcPoly : CrcValue := 0x09#7

/-- One step of the generator for one input bit d (R76): shift left one bit, keep 7 bits, and XOR the constant in when the
outgoing bit differs from d. -/
def crcBit (crc : CrcValue) (d : Bool) : CrcValue :=
  if (crc.getLsbD 6 ^^ d) = true then (crc <<< 1) ^^^ crcPoly else crc <<< 1

/-- The eight steps of one byte, most significant bit first (R75; decision D4 of spec/92_eei_decisions.md). -/
def crcByte (crc : CrcValue) (b : Byte) : CrcValue :=
  [7, 6, 5, 4, 3, 2, 1, 0].foldl (fun c j => crcBit c (b.getLsbD j)) crc

/-- CRC7 of a byte sequence, the accumulator cleared at the start (R75, R78). -/
def crc7 (data : List Byte) : CrcValue :=
  data.foldl crcByte 0#7

end Sys2Proof.Machine
end

