-- ==== Sys2Proof/Machine/Operands.lean ====
section
/-!
DEFINITION. The fixed constants of the wire protocol (spec/00_scope.md rule R5) and every operand form: big-endian byte
sequences (R10), the six bytes of a command frame (spec/30_encoding.md rules R54 to R57), the fixed command arguments (R68)
and the standard-capacity address translation (spec/43_block_transfer.md rule R113).
-/

namespace Sys2Proof.Machine

/-- BLOCK_SIZE: 512 bytes (R5). -/
def blockSize : Nat := 512

/-- FILLER, the byte sent while the block reads (R5). -/
def filler : Byte := 0xFF#8

/-- NOT_READY, the response byte that means "not yet ready" (R5, R60). -/
def notReadyByte : Byte := 0xFF#8

/-- DATA_TOKEN (R5, R64). -/
def dataToken : Byte := 0xFE#8

/-- CMD8_ARG (R5, R68). -/
def cmd8Arg : Word32 := 0x000001AA#32

/-- ACMD41_ARG: bit 30 set, every other bit clear (R5, R68). -/
def acmd41Arg : Word32 := 0x40000000#32

/-- CMD16_ARG: 512 (R5, R68). -/
def cmd16Arg : Word32 := 0x00000200#32

/-- bytes_be32: most significant byte first (R10). -/
def bytesBe32 (v : Word32) : List Byte :=
  [v.extractLsb' 24 8, v.extractLsb' 16 8, v.extractLsb' 8 8, v.extractLsb' 0 8]

/-- The 32-bit value of four bytes, the first the most significant (R10, R43). -/
def wordBe32 (b0 b1 b2 b3 : Byte) : Word32 := b0 ++ b1 ++ b2 ++ b3

/-- Byte 0 of a command frame: start bit 0, transmission bit 1, index (R55). -/
def commandByte (index : CmdIndex) : Byte := (0b01#2) ++ index

/-- Byte 5 of a command frame: the CRC-7 and the stop bit 1 (R57). -/
def crcStopByte (crc : CrcValue) : Byte := crc ++ (1#1)

/-- The first five bytes of a command frame, the bytes its CRC-7 is computed over (R55, R56). -/
def frameHead (index : CmdIndex) (arg : Word32) : List Byte := commandByte index :: bytesBe32 arg

/-- The CRC-7 of a command frame (R57, R81). -/
def frameCrc (index : CmdIndex) (arg : Word32) : CrcValue := crc7 (frameHead index arg)

/-- The six bytes of a command frame, FRAME[0] first (R54, R81). -/
def frameBytes (index : CmdIndex) (arg : Word32) : List Byte :=
  frameHead index arg ++ [crcStopByte (frameCrc index arg)]

/-- The wire address of a standard-capacity card, index * 512, where it does not overflow 32 bits (R113, R114). -/
def standardAddress (index : Word32) : Option Word32 :=
  if index.toNat < 2 ^ 23 then some (index <<< 9) else none

end Sys2Proof.Machine
end

