-- ==== Sys2Proof/Machine/Flags.lean ====
section
/-!
DEFINITION. The flags of the block and the tests on received bytes (spec/10_state.md rule R29; spec/30_encoding.md rules R60,
R62, R63, R66 and R67). The block has no condition codes.
-/

namespace Sys2Proof.Machine

/-- The byte is a response: any value but 0xFF (R60, R83). -/
def isResponse (b : Byte) : Bool := b != notReadyByte

/-- R1 bit 2, "illegal command" (R60). -/
def illegalCommand (r1 : Byte) : Bool := r1.getLsbD 2

/-- R1 bit 0, "still idle" (R60). The block reads it only through whole-byte comparisons. -/
def stillIdle (r1 : Byte) : Bool := r1.getLsbD 0

/-- CMD0 needs R1 = 0x01 (R60, R86). -/
def idleResponse (r1 : Byte) : Bool := r1 == 0x01#8

/-- CMD58, CMD16, CMD17 and CMD24 need R1 = 0x00, and the ACMD41 poll ends at it (R60). -/
def readyResponse (r1 : Byte) : Bool := r1 == 0x00#8

/-- The echo of the interface check: TAIL[2] = 0x01 and TAIL[3] = 0xAA (R62). -/
def echoGood (tail2 tail3 : Byte) : Bool := tail2 == 0x01#8 && tail3 == 0xAA#8

/-- OCR[30] = TAIL[0][6], the capacity bit (R26, R63). -/
def ocrCapacityBit (tail0 : Byte) : Bool := tail0.getLsbD 6

/-- The byte is the data token (R64, R118). -/
def isDataToken (b : Byte) : Bool := b == dataToken

/-- The data response token accepts the write: its low nibble is 0b0101 (R66). -/
def dataAccepted (t : Byte) : Bool := (t &&& 0x0F#8) == 0x05#8

/-- The byte means "not busy": exactly 0xFF (R67). -/
def notBusy (b : Byte) : Bool := b == 0xFF#8

end Sys2Proof.Machine
end

