-- ==== Sys2Proof/Config.lean ====
section
/-!
DEFINITION. What one instance of the block fixes (the parameters of spec/00_scope.md rules R6 and R7) and the free
values: what the card answers to an exchange (spec/20_memory.md rule R40).
-/

namespace Sys2Proof

/-- The parameters of one instance of the block: the four poll budgets of R6 and the decided parameters of R7. R35: they are
fixed for the life of an instance, and no operation reads or writes them as registers. HOST_REG_MAP and SPI_CLOCK_HZ of R7
are OPEN and no rule depends on them, so they are not here. -/
structure Params where
  respPollLimit     : Nat   -- RESP_POLL_LIMIT, response-byte reads after a command frame
  ocrPollLimit      : Nat   -- OCR_POLL_LIMIT, CMD55 + ACMD41 iterations
  tokenPollLimit    : Nat   -- TOKEN_POLL_LIMIT, reads waiting for the read data token
  busyPollLimit     : Nat   -- BUSY_POLL_LIMIT, reads waiting for "not busy" after a write
  powerupDummyBytes : Nat   -- POWERUP_DUMMY_BYTES
  writeGapBytes     : Nat   -- WRITE_GAP_BYTES
  crcPlaceholder0   : Byte  -- CRC_PLACEHOLDER, first byte
  crcPlaceholder1   : Byte  -- CRC_PLACEHOLDER, second byte
  deriving DecidableEq, Repr

/-- The default values of R6 and R7. -/
def Params.default : Params where
  respPollLimit     := 8
  ocrPollLimit      := 2000
  tokenPollLimit    := 10000
  busyPollLimit     := 30000
  powerupDummyBytes := 10
  writeGapBytes     := 0
  crcPlaceholder0   := 0xFF#8
  crcPlaceholder1   := 0xFF#8

/-- Which parameter values are this hardware: every poll budget is at least 1 (R6), and POWERUP_DUMMY_BYTES is at least 10
(spec/70_reset_and_hazards.md rule R168). -/
def Params.wf (p : Params) : Bool :=
  decide (1 ≤ p.respPollLimit) && decide (1 ≤ p.ocrPollLimit) && decide (1 ≤ p.tokenPollLimit) &&
    decide (1 ≤ p.busyPollLimit) && decide (10 ≤ p.powerupDummyBytes)

/-- What one exchange on the transport comes back with: the byte received, or a transport fault (R12, R41). -/
inductive Answer where
  | byte (b : Byte)
  | fault
  deriving DecidableEq, Repr, Inhabited

/-- FREE VALUE (R40; spec/93_implementation_defined.md U8 and U10; notes/assumptions/2.md): the answer to the n-th exchange for
which the state lists no answer. It has no body: nothing can be proved of it, so a claim about it holds for every card and
every transport. -/
opaque Config.freeAnswer : Nat → Answer

end Sys2Proof
end

