-- ==== Sys2Proof/Syntax.lean ====
section
/-!
DEFINITION. The instructions: one constructor for each of the 13 rows of spec/opcode_table.json. The first eight are the wire
commands the block itself issues to the card (spec/30_encoding.md rule R58), the last five the operations a host requests of
the block (rule R70).
-/

namespace Sys2Proof

/-- The instructions of spec/opcode_table.json. -/
inductive Instr where
  /-- CMD0: reset the card (R86). -/
  | cmd0
  /-- CMD8: interface check (R87). -/
  | cmd8
  /-- CMD16: set block length 512 (R88). -/
  | cmd16
  /-- CMD17: read single block, argument the wire address (R89). -/
  | cmd17 (arg : Word32)
  /-- CMD24: write single block, argument the wire address (R90). -/
  | cmd24 (arg : Word32)
  /-- CMD55: app-command prefix (R91). -/
  | cmd55
  /-- ACMD41: operating-condition command, the frame of index 41 after CMD55 (R92). -/
  | acmd41
  /-- CMD58: read the OCR (R93). -/
  | cmd58
  /-- CRC7: the CRC-7 of a byte sequence of any length (R75). -/
  | crc7 (data : List Byte)
  /-- SEND_COMMAND: one command frame and its R1 response (R80). -/
  | sendCommand (index : CmdIndex) (arg : Word32)
  /-- INIT: bring up the card and fix the capacity class (R97). -/
  | init
  /-- READ_BLOCK: read one 512-byte block (R116). -/
  | readBlock (index : Word32)
  /-- WRITE_BLOCK: write one block, data exactly 512 bytes (R121). -/
  | writeBlock (index : Word32) (data : List Byte)
  deriving DecidableEq, Repr

/-- The two encoding surfaces of spec/30_encoding.md: the bytes of a host operation request (R70: the operation code, then the
operands) and the bytes of a command frame on the wire (R54). -/
inductive Code where
  | request (bytes : List Byte)
  | frame (bytes : List Byte)
  deriving DecidableEq, Repr

end Sys2Proof
end

