-- ==== Sys2Proof/Machine/State.lean ====
section
/-!
DEFINITION. The state of the block (spec/10_state.md rule R16: "the block's state is exactly the following registers"), its
event history (R30), the inputs from outside the block (host requests and card answers), the parameters of the instance, and
the reasons a step can stop.
-/

namespace Sys2Proof.Machine

/-- A level of the chip-select output; High means deselected, Low selected (R17). -/
inductive Level where
  | high
  | low
  deriving DecidableEq, Repr

/-- INIT_STATE: the outcome of the last INIT (R18). -/
inductive InitState where
  | uninit
  | ready
  | failed
  deriving DecidableEq, Repr

/-- CAP: the Capacity Class (R20). -/
inductive Cap where
  | undefined
  | standard
  | high
  deriving DecidableEq, Repr

/-- The status of RESULT: OK or an error kind (spec/60_exceptions.md rule R131). BadToken is reserved: no rule raises it. -/
inductive Status where
  | ok
  | transportFailure
  | timeoutResponse
  | timeoutDataToken
  | timeoutInitPoll
  | badResponse
  | badToken
  | initFailed
  deriving DecidableEq, Repr

/-- The step tags of R132. -/
inductive StepTag where
  | sHostCmd
  | sPowerup
  | sCmd0
  | sCmd8
  | sCmd8Echo
  | sCmd55
  | sAcmd41
  | sPoll
  | sCmd58
  | sOcr
  | sCmd16
  | sCmd17
  | sReadToken
  | sReadData
  | sCmd24
  | sWriteData
  | sDataResp
  | sBusy
  deriving DecidableEq, Repr

/-- RESULT.value of a successful operation (R19): CRC7 gives 7 bits, SEND_COMMAND the R1 byte, READ_BLOCK 512 bytes. -/
inductive Value where
  | crc (c : CrcValue)
  | r1 (b : Byte)
  | block (data : List Byte)
  deriving DecidableEq, Repr

/-- RESULT (R19). `value` is none where the operation gives no value, and after every error. -/
structure Result where
  status        : Status
  step          : Option StepTag
  busyExhausted : Bool
  value         : Option Value
  deriving DecidableEq, Repr

/-- The five operations a host requests (R70), by name: what decides the exit actions of R137. -/
inductive Operation where
  | crc7
  | sendCommand
  | init
  | readBlock
  | writeBlock
  deriving DecidableEq, Repr

/-- One event of the history (R30). -/
inductive Event where
  /-- Xfer(cs, out, in): a completed exchange. -/
  | xfer (cs : Level) (sent received : Byte)
  /-- XferFault(cs, out): a faulted exchange. -/
  | xferFault (cs : Level) (sent : Byte)
  /-- Pin(level). -/
  | pin (level : Level)
  /-- Begin(op, operands): the operation, with its operands, is accepted. -/
  | begun (op : Instr)
  /-- End(RESULT). -/
  | ended (result : Result)
  deriving DecidableEq, Repr

/-- A register that R37 resets to "no value". It always holds a value: the one reset left in it (notes/assumptions/1.md names it for
each register), which no rule has written since and which R38 forbids to read; or the one a rule wrote. -/
inductive Reg (α : Type) where
  /-- "A register with no value has not been written since reset" (R38). -/
  | unwritten (v : α)
  | written (v : α)
  deriving DecidableEq, Repr

/-- The value the register holds. -/
def Reg.value {α : Type} : Reg α → α
  | .unwritten v => v
  | .written v => v

/-- A rule has written the register since reset (R38). -/
def Reg.isWritten {α : Type} : Reg α → Bool
  | .unwritten _ => false
  | .written _ => true

/-- FRAME[0..5], the command frame being sent (R23). -/
structure Frame where
  b0 : Byte
  b1 : Byte
  b2 : Byte
  b3 : Byte
  b4 : Byte
  b5 : Byte
  deriving DecidableEq, Repr

/-- TAIL[0..3], the bytes after R1 for CMD8 and CMD58 (R25). -/
structure Tail where
  t0 : Reg Byte
  t1 : Reg Byte
  t2 : Reg Byte
  t3 : Reg Byte
  deriving DecidableEq, Repr

/-- BUF[0..511] as (byte offset, byte) pairs, offsets strictly rising (R27). An offset that is not listed has not been written since
reset: it holds `bufResetByte`, and R38 forbids to read it (R37 "no value"). -/
abbrev Memory := List Host.Cell

/-- What reset leaves at every offset of BUF (DESIGN CHOICE, notes/assumptions/1.md; R38: it is never read). -/
def bufResetByte : Byte := 0x00#8

/-- A register, or a part of one, that can be unwritten since reset (R37, R38). -/
inductive Register where
  | result
  | resultValue
  | legacy
  | crc
  | frame
  | r1
  | tail (k : Nat)
  | buf (offset : Nat)
  | cntResp
  | cntPoll
  | cntToken
  | cntBusy
  deriving DecidableEq, Repr

/-- Why the machine stops with a fault. -/
inductive Fault where
  /-- A register that has not been written since reset is read (R38: "Reading it is a fault in the model. It is never read as 0";
  U7 of spec/93_implementation_defined.md, decision D23 and vector V-REF-5 say `fault` too), or RESULT.value after a failed READ_BLOCK
  (R129, D31, V-REF-6). Raised by noValueFault of Machine/Ops.lean alone. Safe: R38 also says that no rule reads a scratch register the
  same operation has not written before, so only a host's read of RESULT can reach it. -/
  | noValue (r : Register)
  /-- MemRead or MemWrite outside the byte offsets 0..511 of BUF (R11, R39). Raised by memRead and memWrite. Safe: no rule
  reaches it. -/
  | noSuchAddress (offset : Nat)
  deriving DecidableEq, Repr

/-- Why an instruction is refused. -/
inductive Refusal where
  /-- The model gives the instruction no meaning yet. Raised by exec alone. Safe. -/
  | notModelled (mnemonic : String)
  /-- R134 busy: a request while SEQ is not IDLE. Raised by the five host operations. Safe (decision D24). -/
  | busy
  /-- R134 bad_request: bytes that spell no operation (R72). Raised by step for a request the decoder rejects and by
  WRITE_BLOCK for a data operand that is not 512 bytes. Safe (decision D2). -/
  | badRequest
  /-- R134 not_ready: READ_BLOCK or WRITE_BLOCK while INIT_STATE is not Ready (R115). Safe (decision D16). -/
  | notReady
  /-- R134 addr_overflow: a standard-capacity index of 2^23 or more (R114). Safe (decision D17). -/
  | addrOverflow
  /-- A wire command where the sequencer does not issue it: R58 and R86 to R93 name the step that issues each, and the spec
  gives the command no meaning elsewhere. Raised by the eight wire commands. Safe. -/
  | notIssuedHere
  deriving DecidableEq, Repr

/-- The second level of SEQ while a command runs (R31). -/
inductive Framer where
  /-- F_TX(k). -/
  | tx (k : Fin 6)
  /-- F_RX(j), where j is CNT_RESP. -/
  | rx
  deriving DecidableEq, Repr

/-- The place a command frame is issued from: the host's SEND_COMMAND, or a label of INIT, READ_BLOCK or WRITE_BLOCK (R31,
R58). It carries the values the pseudocode holds in local variables: the host's operands and the wire address a. -/
inductive Issuer where
  | host (index : CmdIndex) (arg : Word32)
  | iCmd0
  | iCmd8
  /-- I_CMD55(n), where n is CNT_POLL. -/
  | iCmd55
  /-- I_ACMD41(n), where n is CNT_POLL. -/
  | iAcmd41
  | iCmd58
  | iCmd16
  | rbCmd17 (a : Word32)
  | wbCmd24 (a : Word32)
  deriving DecidableEq, Repr

/-- SEQ, the sequencer's position (R31). The label of a primitive that has not run yet. A label whose index is a poll counter
of R28 has no index of its own: the counter is the index. -/
inductive Seq where
  | idle
  /-- C_RUN, with CRC7's operand. -/
  | cRun (data : List Byte)
  /-- F_TX(k) or F_RX(j) under the label that issues the command. -/
  | cmd (c : Issuer) (f : Framer)
  | iDesel
  | iDummy (k : Nat)
  | iSel
  | iCmd8Tail (k : Fin 4)
  | iOcr (k : Fin 4)
  | iEnd
  | rbSel (a : Word32)
  /-- RB_TOKEN(n), where n is CNT_TOKEN. -/
  | rbToken
  | rbData (k : Fin 512)
  | rbCrc (k : Fin 2)
  | rbEnd
  | wbSel (a : Word32)
  | wbGap (k : Nat)
  | wbToken
  | wbData (k : Fin 512)
  | wbCrc (k : Fin 2)
  | wbResp
  /-- WB_BUSY(n), where n is CNT_BUSY. -/
  | wbBusy
  /-- WB_END, with the pseudocode's bx. -/
  | wbEnd (bx : Bool)
  /-- The MODEL's own: the sequencer read a register that has not been written since reset (R38: a fault). The next step answers the fault. -/
  | stuck (f : Fault)
  deriving DecidableEq, Repr

/-- The state of the machine. The first fifteen fields are the registers of R16. -/
structure State where
  csLevel   : Level
  initState : InitState
  cap       : Cap
  result    : Reg Result
  legacy    : Reg Bool
  crc       : Reg CrcValue
  frame     : Reg Frame
  r1        : Reg Byte
  tail      : Tail
  buf       : Memory
  cntResp   : Reg Nat
  cntPoll   : Reg Nat
  cntToken  : Reg Nat
  cntBusy   : Reg Nat
  seq       : Seq
  /-- The event history (R30), the newest event first. -/
  history   : List Event
  /-- INPUT: the answers the card and the transport give to the next exchanges, in order (R40, R12). -/
  answers   : List Answer
  /-- The MODEL's own: how many answers have been drawn from Config.freeAnswer, because `answers` listed none. -/
  draws     : Nat
  /-- INPUT: the host's requests still to come, each the bytes of one (R70). -/
  requests  : List (List Byte)
  /-- The parameters of the instance (R6, R7, R35): no operation writes them. -/
  params    : Params
  deriving DecidableEq, Repr

/-- The machine right after reset (R37, R151, R152): SEQ = IDLE, CS_LEVEL = High, INIT_STATE = Uninit, CAP = Undefined, RESULT
and every scratch register unwritten ("no value"). What an unwritten register holds is zero: the spec gives none, and the value is the
model's (DESIGN CHOICE, notes/assumptions/1.md). The history is empty, no input is listed, and the parameters are the defaults. -/
def State.reset : State where
  csLevel   := .high
  initState := .uninit
  cap       := .undefined
  result    := .unwritten { status := .ok, step := none, busyExhausted := false, value := none }
  legacy    := .unwritten false
  crc       := .unwritten 0#7
  frame     := .unwritten { b0 := 0#8, b1 := 0#8, b2 := 0#8, b3 := 0#8, b4 := 0#8, b5 := 0#8 }
  r1        := .unwritten 0#8
  tail      := { t0 := .unwritten 0#8, t1 := .unwritten 0#8, t2 := .unwritten 0#8, t3 := .unwritten 0#8 }
  buf       := []
  cntResp   := .unwritten 0
  cntPoll   := .unwritten 0
  cntToken  := .unwritten 0
  cntBusy   := .unwritten 0
  seq       := .idle
  history   := []
  answers   := []
  draws     := 0
  requests  := []
  params    := .default

end Sys2Proof.Machine
end

