-- ==== Sys2Proof/Machine/Ops.lean ====
section
/-!
DEFINITION. The primitives of spec/00_scope.md rule R11 over the state: register reads (R38), the history (R30), CS_Set and
Xfer (spec/20_memory.md rules R41 and R42), MemRead and MemWrite over BUF, loading FRAME, `raise` with the exit actions of
spec/60_exceptions.md rule R137, and `return`.
-/

namespace Sys2Proof.Machine

/-! ## Register reads -/

/-- The one place the machine stops for want of a value, because the spec says so: R38 ("Reading it is a fault in the model. It is never
read as 0"), R129 ("a host that reads it faults in the model"), U7 (`fault`), decisions D23 and D31, vectors V-REF-5 and V-REF-6. -/
abbrev noValueFault {α : Type} (r : Register) : Except Fault α := .error (.noValue r)

/-- Read a register. One that has not been written since reset is R38's fault. -/
def readRegister {α : Type} (r : Register) (v : Reg α) : Except Fault α :=
  match v with
  | .written a => .ok a
  | .unwritten _ => noValueFault r

/-- Read a byte of BUF: one that nothing has written since reset is R38's fault (R37 gives BUF no value). -/
def readPresent {α : Type} (r : Register) (v : Option α) : Except Fault α :=
  match v with
  | some a => .ok a
  | none => noValueFault r

/-- The host's status output INIT_STATE (R34). -/
def State.readInitState (s : State) : InitState := s.initState

/-- The host's status output CAP (R34). -/
def State.readCap (s : State) : Cap := s.cap

/-- The host's status output RESULT (R34): reading it before any operation has ended is a fault (R38). -/
def State.readResult (s : State) : Except Fault Result := readRegister .result s.result

/-- RESULT reports a failed READ_BLOCK: an error at a step of READ_BLOCK (R132). -/
def Result.ofFailedRead (r : Result) : Bool :=
  r.status != .ok && (r.step == some .sCmd17 || r.step == some .sReadToken || r.step == some .sReadData)

/-- RESULT.value as the host reads it: the value of R19, which is none after INIT and WRITE_BLOCK; before any operation has ended it
is R38's fault, and after a failed READ_BLOCK R129's (V-REF-5, V-REF-6). After another error it is none (notes/assumptions/1.md). -/
def State.readResultValue (s : State) : Except Fault (Option Value) :=
  match s.readResult with
  | .ok r => if r.ofFailedRead then noValueFault .resultValue else .ok r.value
  | .error f => .error f

def State.readLegacy (s : State) : Except Fault Bool := readRegister .legacy s.legacy
def State.readCrc (s : State) : Except Fault CrcValue := readRegister .crc s.crc
def State.readFrame (s : State) : Except Fault Frame := readRegister .frame s.frame
def State.readR1 (s : State) : Except Fault Byte := readRegister .r1 s.r1
def State.readCntResp (s : State) : Except Fault Nat := readRegister .cntResp s.cntResp
def State.readCntPoll (s : State) : Except Fault Nat := readRegister .cntPoll s.cntPoll
def State.readCntToken (s : State) : Except Fault Nat := readRegister .cntToken s.cntToken
def State.readCntBusy (s : State) : Except Fault Nat := readRegister .cntBusy s.cntBusy

/-- TAIL[k] (R25). -/
def Tail.get (t : Tail) (k : Fin 4) : Reg Byte :=
  match k with
  | 0 => t.t0
  | 1 => t.t1
  | 2 => t.t2
  | 3 => t.t3

/-- TAIL[k] <- b (R25). -/
def Tail.set (t : Tail) (k : Fin 4) (b : Byte) : Tail :=
  match k with
  | 0 => { t with t0 := .written b }
  | 1 => { t with t1 := .written b }
  | 2 => { t with t2 := .written b }
  | 3 => { t with t3 := .written b }

def State.readTail (s : State) (k : Fin 4) : Except Fault Byte := readRegister (.tail k) (s.tail.get k)

/-- OCR, the 32-bit value of TAIL, TAIL[0] the most significant byte (R26). -/
def State.readOcr (s : State) : Except Fault Word32 :=
  match s.readTail 0, s.readTail 1, s.readTail 2, s.readTail 3 with
  | .ok b0, .ok b1, .ok b2, .ok b3 => .ok (wordBe32 b0 b1 b2 b3)
  | .error f, _, _, _ => .error f
  | _, .error f, _, _ => .error f
  | _, _, .error f, _ => .error f
  | _, _, _, .error f => .error f

/-- FRAME[k] (R23). -/
def Frame.byte (f : Frame) (k : Fin 6) : Byte :=
  match k with
  | 0 => f.b0
  | 1 => f.b1
  | 2 => f.b2
  | 3 => f.b3
  | 4 => f.b4
  | 5 => f.b5

/-! ## BUF (R27): MemRead and MemWrite of one byte -/

/-- The canonical form of BUF: offsets strictly rising and all below 512. An unlisted offset is unwritten, so no listed entry
can equal what an unlisted offset reads as. -/
def Memory.wf (m : Memory) : Bool :=
  decide (m.Pairwise (fun c d => c.1 < d.1)) && m.all (fun c => decide (c.1 < blockSize))

/-- The byte at an offset, none where nothing has been written. -/
def Memory.byteAt (m : Memory) (offset : Nat) : Option Byte :=
  match m with
  | [] => none
  | (k, b) :: rest => if k = offset then some b else Memory.byteAt rest offset

/-- The byte an offset of BUF holds, whether or not a rule has written it since reset. -/
def Memory.holds (m : Memory) (offset : Nat) : Byte := (m.byteAt offset).getD bufResetByte

/-- Write one byte, keeping the offsets strictly rising. -/
def Memory.put (m : Memory) (offset : Nat) (b : Byte) : Memory :=
  match m with
  | [] => [(offset, b)]
  | (k, c) :: rest =>
    if k < offset then (k, c) :: Memory.put rest offset b
    else if k = offset then (offset, b) :: rest
    else (offset, b) :: (k, c) :: rest

/-- MemRead(offset, 1) (R11): the offsets are 0..511, and reading a byte not written since reset is R38's fault. -/
def memRead (m : Memory) (offset : Nat) : Except Fault Byte :=
  if offset < blockSize then readPresent (.buf offset) (m.byteAt offset) else .error (.noSuchAddress offset)

/-- MemWrite(offset, 1, b) (R11). -/
def memWrite (m : Memory) (offset : Nat) (b : Byte) : Except Fault Memory :=
  if offset < blockSize then .ok (m.put offset b) else .error (.noSuchAddress offset)

/-- BUF[offset .. offset + n - 1], by one walk along the cells: reading an offset that is not listed is R38's fault. -/
def memReadRange (m : Memory) (offset n : Nat) : Except Fault (List Byte) :=
  match n with
  | 0 => .ok []
  | n + 1 =>
    match m.dropWhile (fun c => decide (c.1 < offset)) with
    | [] => noValueFault (.buf offset)
    | (k, b) :: rest =>
      if k = offset then
        match memReadRange rest (offset + 1) n with
        | .ok bs => .ok (b :: bs)
        | .error f => .error f
      else noValueFault (.buf offset)

/-- The cells of bytes that lie from an offset on. -/
def cellsFrom (offset : Nat) : List Byte → Memory
  | [] => []
  | b :: bs => (offset, b) :: cellsFrom (offset + 1) bs

/-! ## The history, the pin and the transport -/

/-- Append an event to the history (R30). -/
def State.log (s : State) (e : Event) : State := { s with history := e :: s.history }

/-- The history in time order (R30). -/
def State.events (s : State) : List Event := s.history.reverse

/-- seq <- L (R11). -/
def State.goto (s : State) (l : Seq) : State := { s with seq := l }

/-- The sequencer stops at a read the spec forbids (R38); the next step answers the fault. -/
def State.stop (s : State) (f : Fault) : State := s.goto (.stuck f)

/-- CS_Set(level): drive the pin, set CS_LEVEL, append Pin(level). It cannot fail (R42). -/
def csSet (level : Level) (s : State) : State := { s with csLevel := level }.log (.pin level)

/-- The answer to the next exchange: the next listed one, or a free draw where none is listed (R40). -/
def State.nextAnswer (s : State) : Answer :=
  match s.answers with
  | a :: _ => a
  | [] => Config.freeAnswer s.draws

/-- The state after the answer has been taken. -/
def State.takeAnswer (s : State) : State :=
  match s.answers with
  | _ :: rest => { s with answers := rest }
  | [] => { s with draws := s.draws + 1 }

/-- The event an exchange that sends `out` and is answered `a` appends (R41). -/
def xferEvent (cs : Level) (out : Byte) (a : Answer) : Event :=
  match a with
  | .byte b => .xfer cs out b
  | .fault => .xferFault cs out

/-- The state after Xfer(out): the answer taken, one event appended (R41). -/
def xfer (out : Byte) (s : State) : State := s.takeAnswer.log (xferEvent s.csLevel out s.nextAnswer)

/-! ## Commands -/

/-- The index and the argument of the command an issuer sends (R58, R68). -/
def Issuer.index : Issuer → CmdIndex
  | .host index _ => index
  | .iCmd0 => 0#6
  | .iCmd8 => 8#6
  | .iCmd55 => 55#6
  | .iAcmd41 => 41#6
  | .iCmd58 => 58#6
  | .iCmd16 => 16#6
  | .rbCmd17 _ => 17#6
  | .wbCmd24 _ => 24#6

def Issuer.arg : Issuer → Word32
  | .host _ arg => arg
  | .iCmd0 => 0#32
  | .iCmd8 => cmd8Arg
  | .iCmd55 => 0#32
  | .iAcmd41 => acmd41Arg
  | .iCmd58 => 0#32
  | .iCmd16 => cmd16Arg
  | .rbCmd17 a => a
  | .wbCmd24 a => a

/-- The step tag a command runs with (R80, R86 to R93, R132). -/
def Issuer.tag : Issuer → StepTag
  | .host _ _ => .sHostCmd
  | .iCmd0 => .sCmd0
  | .iCmd8 => .sCmd8
  | .iCmd55 => .sCmd55
  | .iAcmd41 => .sAcmd41
  | .iCmd58 => .sCmd58
  | .iCmd16 => .sCmd16
  | .rbCmd17 _ => .sCmd17
  | .wbCmd24 _ => .sCmd24

/-- The operation a command is issued in. -/
def Issuer.operation : Issuer → Operation
  | .host _ _ => .sendCommand
  | .iCmd0 => .init
  | .iCmd8 => .init
  | .iCmd55 => .init
  | .iAcmd41 => .init
  | .iCmd58 => .init
  | .iCmd16 => .init
  | .rbCmd17 _ => .readBlock
  | .wbCmd24 _ => .writeBlock

/-- The error a response timeout ends with: TimeoutResponse, which INIT step 2 catches as InitFailed (R80, R100). -/
def Issuer.timeoutStatus : Issuer → Status
  | .host _ _ => .timeoutResponse
  | .iCmd0 => .initFailed
  | .iCmd8 => .timeoutResponse
  | .iCmd55 => .timeoutResponse
  | .iAcmd41 => .timeoutResponse
  | .iCmd58 => .timeoutResponse
  | .iCmd16 => .timeoutResponse
  | .rbCmd17 _ => .timeoutResponse
  | .wbCmd24 _ => .timeoutResponse

/-- The wire command of the opcode table an issuer sends; a host's SEND_COMMAND is an instruction of its own. -/
def Issuer.wireCommand : Issuer → Option Instr
  | .host _ _ => none
  | .iCmd0 => some .cmd0
  | .iCmd8 => some .cmd8
  | .iCmd55 => some .cmd55
  | .iAcmd41 => some .acmd41
  | .iCmd58 => some .cmd58
  | .iCmd16 => some .cmd16
  | .rbCmd17 a => some (.cmd17 a)
  | .wbCmd24 a => some (.cmd24 a)

/-- The FRAME register's contents for a command: the bytes of `frameBytes` (R81). -/
def frameOf (index : CmdIndex) (arg : Word32) : Frame where
  b0 := commandByte index
  b1 := arg.extractLsb' 24 8
  b2 := arg.extractLsb' 16 8
  b3 := arg.extractLsb' 8 8
  b4 := arg.extractLsb' 0 8
  b5 := crcStopByte (frameCrc index arg)

/-- FRAME <- the frame of the command, built fresh (R23, R80); its CRC passes through the CRC register (R22). -/
def loadFrame (c : Issuer) (s : State) : State :=
  { s with frame := .written (frameOf c.index c.arg), crc := .written (frameCrc c.index c.arg) }

/-! ## How an operation ends -/

/-- RESULT <- r, End(RESULT), SEQ <- IDLE (R137). -/
def endOperation (r : Result) (s : State) : State := { s with result := .written r, seq := .idle }.log (.ended r)

/-- The exit actions of an error (R137): INIT sets INIT_STATE to Failed and CAP to Undefined, and INIT, READ_BLOCK and
WRITE_BLOCK deselect. -/
def errorExit (op : Operation) (s : State) : State :=
  match op with
  | .crc7 => s
  | .sendCommand => s
  | .init => csSet .high { s with initState := .failed, cap := .undefined }
  | .readBlock => csSet .high s
  | .writeBlock => csSet .high s

/-- RESULT of an error: its kind and step, busy_exhausted 0, no value (R19, R129, R130). -/
def errorResult (kind : Status) (step : StepTag) : Result :=
  { status := kind, step := some step, busyExhausted := false, value := none }

/-- RESULT of a success. -/
def okResult (busyExhausted : Bool) (value : Option Value) : Result :=
  { status := .ok, step := none, busyExhausted := busyExhausted, value := value }

/-- raise E(kind, step): the exit actions of the operation, then RESULT, End, IDLE (R11, R137). The block's one way of taking
an exception: R140 says that there is no handler and no saved context, the error is the operation's result. -/
def raise (op : Operation) (kind : Status) (step : StepTag) (s : State) : State :=
  endOperation (errorResult kind step) (errorExit op s)

/-- return: RESULT with status 0, End, IDLE (R137, R140). The success exit actions of R137 stand at the labels I_END, RB_END and
WB_END, before it. -/
def complete (busyExhausted : Bool) (value : Option Value) (s : State) : State :=
  endOperation (okResult busyExhausted value) s

/-- Xfer(out) inside an operation: a transport fault raises TransportFailure with the current step at once, and otherwise the
received byte goes on (R12, R135). -/
def exchange (op : Operation) (step : StepTag) (out : Byte) (onByte : Byte → State → State) (s : State) : State :=
  match s.nextAnswer with
  | .byte b => onByte b (xfer out s)
  | .fault => raise op .transportFailure step (xfer out s)

/-- Go on with the value of a register read, or stop at one not written since reset (R38: a fault). -/
def withRead {α : Type} (v : Except Fault α) (use : α → State → State) (s : State) : State :=
  match v with
  | .ok a => use a s
  | .error f => s.stop f

/-- The wire address of a block index (R113). CAP = Undefined is kept from it by R115; here it is refused as not_ready. -/
def wireAddress (cap : Cap) (index : Word32) : Except Refusal Word32 :=
  match cap with
  | .high => .ok index
  | .standard =>
    match standardAddress index with
    | some a => .ok a
    | none => .error .addrOverflow
  | .undefined => .error .notReady

/-- Status codes (R131). -/
def Status.code : Status → Nat
  | .ok => 0
  | .transportFailure => 1
  | .timeoutResponse => 2
  | .timeoutDataToken => 3
  | .timeoutInitPoll => 4
  | .badResponse => 5
  | .badToken => 6
  | .initFailed => 7

/-! ## Observations of the history -/

/-- The event is an exchange, completed or faulted. -/
def Event.isExchange : Event → Bool
  | .xfer _ _ _ => true
  | .xferFault _ _ => true
  | .pin _ => false
  | .begun _ => false
  | .ended _ => false

/-- How many exchanges a history holds (R96, R112, R128). -/
def exchangeCount (h : List Event) : Nat := (h.filter Event.isExchange).length

end Sys2Proof.Machine
end

