-- ==== Sys2Proof/Machine/BlockSteps.lean ====
section
/-!
DEFINITION. The labels of READ_BLOCK (spec/43_block_transfer.md rule R116) and WRITE_BLOCK (rule R121) as steps of the sequencer,
and what each does with the R1 of its command.
-/

namespace Sys2Proof.Machine

/-! ## READ_BLOCK -/

/-- RB_SEL: CS_Set(Low) (R117). -/
def readSelect (a : Word32) (s : State) : State := (csSet .low s).goto (.cmd (.rbCmd17 a) (.tx 0))

/-- After CMD17: R1 must be 0x00, then the data-token poll begins (R117, R118). -/
def readAfterCmd17 (r : Byte) (s : State) : State :=
  if readyResponse r then { s with cntToken := .written 1 }.goto .rbToken else raise .readBlock .badResponse .sCmd17 s

/-- RB_TOKEN(n): one read; 0xFE ends the poll, every other byte is skipped, and the last read without it is
TimeoutDataToken (R118). -/
def readToken (s : State) : State :=
  withRead s.readCntToken
    (fun n => exchange .readBlock .sReadToken filler
      (fun b s' =>
        if isDataToken b then s'.goto (.rbData 0)
        else if n < s'.params.tokenPollLimit then { s' with cntToken := .written (n + 1) }
        else raise .readBlock .timeoutDataToken .sReadToken s')) s

/-- RB_DATA(k): BUF[k] <- Xfer(0xFF) (R119). The other offsets keep what they held: so a READ_BLOCK that fails leaves, at the offsets it
did not receive, the bytes of earlier operations (DESIGN CHOICE, notes/assumptions/21.md; U13 calls BUF then "any value", and R129 says
only that it holds the bytes received). -/
def readData (k : Fin 512) (s : State) : State :=
  exchange .readBlock .sReadData filler
    (fun b s' => withRead (memWrite s'.buf k.val b)
      (fun m s'' => { s'' with buf := m }.goto (if h : k.val + 1 < 512 then .rbData ⟨k.val + 1, h⟩ else .rbCrc 0)) s') s

/-- RB_CRC(k): a CRC byte, read and discarded (R119). -/
def readCrcByte (k : Fin 2) (s : State) : State :=
  exchange .readBlock .sReadData filler (fun _ s' => s'.goto (if k.val + 1 < 2 then .rbCrc 1 else .rbEnd)) s

/-- RB_END: CS_Set(High), return BUF[0..511] (R120). -/
def readEnd (s : State) : State :=
  withRead (memReadRange s.buf 0 blockSize) (fun data s' => complete false (some (.block data)) (csSet .high s')) s

/-! ## WRITE_BLOCK -/

/-- WB_SEL: CS_Set(Low) (R122). -/
def writeSelect (a : Word32) (s : State) : State := (csSet .low s).goto (.cmd (.wbCmd24 a) (.tx 0))

/-- After CMD24: R1 must be 0x00, then the gap, if any, and the data token (R122, R123). -/
def writeAfterCmd24 (r : Byte) (s : State) : State :=
  if readyResponse r then s.goto (if s.params.writeGapBytes = 0 then .wbToken else .wbGap 0)
  else raise .writeBlock .badResponse .sCmd24 s

/-- WB_GAP(k): one filler byte (R123). -/
def writeGap (k : Nat) (s : State) : State :=
  exchange .writeBlock .sWriteData filler
    (fun _ s' => s'.goto (if k + 1 < s'.params.writeGapBytes then .wbGap (k + 1) else .wbToken)) s

/-- WB_TOKEN: the data token 0xFE (R123). -/
def writeToken (s : State) : State :=
  exchange .writeBlock .sWriteData dataToken (fun _ s' => s'.goto (.wbData 0)) s

/-- WB_DATA(k): BUF[k] goes out (R123). -/
def writeData (k : Fin 512) (s : State) : State :=
  withRead (memRead s.buf k.val)
    (fun out => exchange .writeBlock .sWriteData out
      (fun _ s' => s'.goto (if h : k.val + 1 < 512 then .wbData ⟨k.val + 1, h⟩ else .wbCrc 0))) s

/-- WB_CRC(k): the placeholder bytes CRC_PLACEHOLDER (R65, R123). -/
def writeCrcByte (k : Fin 2) (s : State) : State :=
  exchange .writeBlock .sWriteData (if k.val = 0 then s.params.crcPlaceholder0 else s.params.crcPlaceholder1)
    (fun _ s' => s'.goto (if k.val + 1 < 2 then .wbCrc 1 else .wbResp)) s

/-- WB_RESP: the data response token, read once; a low nibble other than 0b0101 is BadResponse (R124). -/
def writeResponse (s : State) : State :=
  exchange .writeBlock .sDataResp filler
    (fun t s' =>
      if dataAccepted t then { s' with cntBusy := .written 1 }.goto .wbBusy
      else raise .writeBlock .badResponse .sDataResp s') s

/-- WB_BUSY(n): one read; 0xFF ends the poll, and running out of reads is the soft condition bx = 1, no error (R125, R139). -/
def writeBusy (s : State) : State :=
  withRead s.readCntBusy
    (fun n => exchange .writeBlock .sBusy filler
      (fun b s' =>
        if notBusy b then s'.goto (.wbEnd false)
        else if n < s'.params.busyPollLimit then { s' with cntBusy := .written (n + 1) }
        else s'.goto (.wbEnd true))) s

/-- WB_END: CS_Set(High), return with RESULT.busy_exhausted = bx (R126, R130). -/
def writeEnd (bx : Bool) (s : State) : State := complete bx none (csSet .high s)

end Sys2Proof.Machine
end

