-- ==== Sys2Proof/Machine/InitSteps.lean ====
section
/-!
DEFINITION. The labels of INIT (spec/42_init.md rule R97) as steps of the sequencer, and what INIT does with the R1 of each
command it issues. One definition for each label; each does the label's one primitive (spec/10_state.md rule R32) and the
register writes up to the next label.
-/

namespace Sys2Proof.Machine

/-- Entry: CAP <- Undefined, INIT_STATE <- Uninit, LEGACY <- 0, before any bus activity (R98). -/
def initEntry (s : State) : State :=
  { s with cap := .undefined, initState := .uninit, legacy := .written false }.goto .iDesel

/-- I_DESEL: CS_Set(High) (R99). -/
def initDeselect (s : State) : State :=
  (csSet .high s).goto (if s.params.powerupDummyBytes = 0 then .iSel else .iDummy 0)

/-- I_DUMMY(k): one filler exchange while deselected, the received byte discarded (R99). -/
def initDummy (k : Nat) (s : State) : State :=
  exchange .init .sPowerup filler
    (fun _ s' => s'.goto (if k + 1 < s'.params.powerupDummyBytes then .iDummy (k + 1) else .iSel)) s

/-- I_SEL: CS_Set(Low) (R99). -/
def initSelect (s : State) : State := (csSet .low s).goto (.cmd .iCmd0 (.tx 0))

/-- Step 4 begins: CNT_POLL <- 0, and the first iteration counts 1 (R103, R28). -/
def initEnterPoll (s : State) : State := { s with cntPoll := .written 1 }.goto (.cmd .iCmd55 (.tx 0))

/-- After CMD0: R1 must be 0x01 (R100). -/
def initAfterCmd0 (r : Byte) (s : State) : State :=
  if idleResponse r then s.goto (.cmd .iCmd8 (.tx 0)) else raise .init .initFailed .sCmd0 s

/-- After CMD8: R1[2] makes the card legacy and skips the tail (R101); otherwise the tail follows (R102). -/
def initAfterCmd8 (r : Byte) (s : State) : State :=
  if illegalCommand r then initEnterPoll { s with legacy := .written true } else s.goto (.iCmd8Tail 0)

/-- The echo check of the four tail bytes (R102). -/
def initCheckEcho (s : State) : State :=
  withRead (s.readTail 2)
    (fun t2 => withRead (s.readTail 3)
      (fun t3 s' => if echoGood t2 t3 then initEnterPoll s' else raise .init .badResponse .sCmd8Echo s')) s

/-- I_CMD8_TAIL(k): TAIL[k] <- Xfer(0xFF); after the last byte the echo is checked (R102). -/
def initCmd8Tail (k : Fin 4) (s : State) : State :=
  exchange .init .sCmd8Echo filler
    (fun b s' =>
      if h : k.val + 1 < 4 then { s' with tail := s'.tail.set k b }.goto (.iCmd8Tail ⟨k.val + 1, h⟩)
      else initCheckEcho { s' with tail := s'.tail.set k b }) s

/-- After CMD55: the R1 is ignored (R103). -/
def initAfterCmd55 (_r : Byte) (s : State) : State := s.goto (.cmd .iAcmd41 (.tx 0))

/-- After ACMD41: R1 = 0x00 ends the poll; otherwise the next iteration, or TimeoutInitPoll after the last (R103, R104). -/
def initAfterAcmd41 (r : Byte) (s : State) : State :=
  if readyResponse r then s.goto (.cmd .iCmd58 (.tx 0))
  else withRead s.readCntPoll
    (fun n s' =>
      if n < s'.params.ocrPollLimit then { s' with cntPoll := .written (n + 1) }.goto (.cmd .iCmd55 (.tx 0))
      else raise .init .timeoutInitPoll .sPoll s') s

/-- After CMD58: R1 must be 0x00, then the OCR follows (R105). -/
def initAfterCmd58 (r : Byte) (s : State) : State :=
  if readyResponse r then s.goto (.iOcr 0) else raise .init .badResponse .sCmd58 s

/-- The capacity decision: High iff the card is not legacy and OCR[30] = 1 (R106). -/
def capacityOf (legacy : Bool) (tail0 : Byte) : Cap :=
  if legacy = false ∧ ocrCapacityBit tail0 = true then .high else .standard

/-- CAP <- the decision; CMD16 follows only for Standard (R106, R107). -/
def initDecideCapacity (s : State) : State :=
  withRead s.readLegacy
    (fun legacy => withRead (s.readTail 0)
      (fun t0 s' =>
        { s' with cap := capacityOf legacy t0 }.goto
          (if capacityOf legacy t0 = Cap.standard then .cmd .iCmd16 (.tx 0) else .iEnd))) s

/-- I_OCR(k): TAIL[k] <- Xfer(0xFF); after the last byte the capacity is decided (R105, R106). -/
def initOcr (k : Fin 4) (s : State) : State :=
  exchange .init .sOcr filler
    (fun b s' =>
      if h : k.val + 1 < 4 then { s' with tail := s'.tail.set k b }.goto (.iOcr ⟨k.val + 1, h⟩)
      else initDecideCapacity { s' with tail := s'.tail.set k b }) s

/-- After CMD16: R1 must be 0x00 (R107). -/
def initAfterCmd16 (r : Byte) (s : State) : State :=
  if readyResponse r then s.goto .iEnd else raise .init .badResponse .sCmd16 s

/-- I_END: INIT_STATE <- Ready, CS_Set(High), return (R108). -/
def initEnd (s : State) : State := complete false none (csSet .high { s with initState := .ready })

end Sys2Proof.Machine
end

