-- ==== Sys2Proof/Machine/Sequencer.lean ====
section
/-!
DEFINITION. The command framer (spec/41_framer.md rule R80, `Cmd`), and `tick`: one primitive of the sequencer (spec/10_state.md
rules R31 to R33; spec/70_reset_and_hazards.md rule R165: each Xfer is one step). `runToIdle` runs an operation to completion
(spec/00_scope.md rule R14), and `runCommand` one command.
-/

namespace Sys2Proof.Machine

/-- What the issuer of a command does with its response byte (R86 to R93; for the host, R80). -/
def afterResponse (c : Issuer) (r : Byte) (s : State) : State :=
  match c with
  | .host _ _ => complete false (some (.r1 r)) s
  | .iCmd0 => initAfterCmd0 r s
  | .iCmd8 => initAfterCmd8 r s
  | .iCmd55 => initAfterCmd55 r s
  | .iAcmd41 => initAfterAcmd41 r s
  | .iCmd58 => initAfterCmd58 r s
  | .iCmd16 => initAfterCmd16 r s
  | .rbCmd17 _ => readAfterCmd17 r s
  | .wbCmd24 _ => writeAfterCmd24 r s

/-- F_TX(k): FRAME[k] goes out, and the received byte is discarded (R82, R95); the response poll follows FRAME[5]. -/
def framerSend (c : Issuer) (k : Fin 6) (s : State) : State :=
  withRead s.readFrame
    (fun f => exchange c.operation c.tag (f.byte k)
      (fun _ s' =>
        if h : k.val + 1 < 6 then s'.goto (.cmd c (.tx ⟨k.val + 1, h⟩))
        else { s' with cntResp := .written 1 }.goto (.cmd c .rx))) s

/-- F_TX(k), the frame being built before its first byte goes out (R80, R81). -/
def framerTx (c : Issuer) (k : Fin 6) (s : State) : State :=
  if k.val = 0 then framerSend c k (loadFrame c s) else framerSend c k s

/-- F_RX(j): one read; the first byte that is not 0xFF is the response, and the last read without one is a timeout (R83,
R84). -/
def framerRx (c : Issuer) (s : State) : State :=
  withRead s.readCntResp
    (fun j => exchange c.operation c.tag filler
      (fun b s' =>
        if isResponse b then afterResponse c b { s' with r1 := .written b }
        else if j < s'.params.respPollLimit then { s' with cntResp := .written (j + 1) }
        else raise c.operation c.timeoutStatus c.tag s')) s

/-- C_RUN: the CRC of the operand, through the CRC register (R75). It makes no exchange. -/
def crcRun (data : List Byte) (s : State) : State :=
  complete false (some (.crc (crc7 data))) { s with crc := .written (crc7 data) }

/-- One step of the sequencer: the primitive of the label SEQ stands at (R32). It has none in IDLE, and none once it is stuck. -/
def tick (s : State) : State :=
  match s.seq with
  | .idle => s
  | .stuck _ => s
  | .cRun data => crcRun data s
  | .cmd c (.tx k) => framerTx c k s
  | .cmd c .rx => framerRx c s
  | .iDesel => initDeselect s
  | .iDummy k => initDummy k s
  | .iSel => initSelect s
  | .iCmd8Tail k => initCmd8Tail k s
  | .iOcr k => initOcr k s
  | .iEnd => initEnd s
  | .rbSel a => readSelect a s
  | .rbToken => readToken s
  | .rbData k => readData k s
  | .rbCrc k => readCrcByte k s
  | .rbEnd => readEnd s
  | .wbSel a => writeSelect a s
  | .wbGap k => writeGap k s
  | .wbToken => writeToken s
  | .wbData k => writeData k s
  | .wbCrc k => writeCrcByte k s
  | .wbResp => writeResponse s
  | .wbBusy => writeBusy s
  | .wbEnd bx => writeEnd bx s

/-- An operation is in progress: SEQ is neither IDLE nor stuck. -/
def Seq.running : Seq → Bool
  | .idle => false
  | .stuck _ => false
  | _ => true

/-- The sequencer stands inside the command of issuer c. -/
def Seq.inCommand (c : Issuer) : Seq → Bool
  | .cmd d _ => d == c
  | _ => false

/-- Run the sequencer for at most n steps, as long as an operation is in progress. -/
def runFor : Nat → State → State
  | 0, s => s
  | n + 1, s => if s.seq.running then runFor n (tick s) else s

/-- Run the sequencer for at most n steps, as long as it stands inside the command of issuer c. -/
def runCommandFor (c : Issuer) : Nat → State → State
  | 0, s => s
  | n + 1, s => if s.seq.inCommand c then runCommandFor c n (tick s) else s

/-- More steps than any operation takes: every loop is bounded by its limit (R28, R150). -/
def operationBudget (p : Params) : Nat :=
  2000 + p.powerupDummyBytes + p.writeGapBytes + p.tokenPollLimit + p.busyPollLimit +
    (2 * p.ocrPollLimit + 6) * (p.respPollLimit + 7)

/-- More steps than any command takes (R96). -/
def commandBudget (p : Params) : Nat := 7 + p.respPollLimit

/-- Run the operation in progress to completion (R14, R150). -/
def runToIdle (s : State) : State := runFor (operationBudget s.params) s

/-- Run the command in progress until the sequencer leaves it. -/
def runCommand (c : Issuer) (s : State) : State := runCommandFor c (commandBudget s.params) s

/-- The index a label of R31 carries, where the label takes it from a poll counter of R28. -/
def State.loopIndex (s : State) : Option Nat :=
  match s.seq with
  | .cmd _ .rx => some s.cntResp.value
  | .cmd .iCmd55 _ => some s.cntPoll.value
  | .cmd .iAcmd41 _ => some s.cntPoll.value
  | .rbToken => some s.cntToken.value
  | .wbBusy => some s.cntBusy.value
  | _ => none

end Sys2Proof.Machine
end

