-- ==== Sys2Proof/Machine/HostOperations.lean ====
section
/-!
DEFINITION. The meanings of the five host operations (spec/30_encoding.md rule R70): the refusals of spec/60_exceptions.md rule
R134 first, with no effect at all, and otherwise Begin and the whole operation, run to completion (spec/00_scope.md rule R14).
-/

namespace Sys2Proof.Machine

/-- The outcome of a request the block accepts while SEQ = IDLE: Begin(op, operands) is appended, the operation is set up, and the
sequencer runs it to its end. While an operation runs, the request is refused as busy (R134). -/
def request (op : Instr) (setUp : State → State) (s : State) : Host.Outcome State Fault Refusal :=
  if s.seq = .idle then .next (runToIdle (setUp (s.log (.begun op)))) else .refused .busy

/-- CRC7 (R75). -/
def execCrc7 (data : List Byte) (s : State) : Host.Outcome State Fault Refusal :=
  request (.crc7 data) (fun s' => s'.goto (.cRun data)) s

/-- SEND_COMMAND (R80). -/
def execSendCommand (index : CmdIndex) (arg : Word32) (s : State) : Host.Outcome State Fault Refusal :=
  request (.sendCommand index arg) (fun s' => s'.goto (.cmd (.host index arg) (.tx 0))) s

/-- INIT (R97), accepted in any INIT_STATE (R111). -/
def execInit (s : State) : Host.Outcome State Fault Refusal :=
  request .init initEntry s

/-- What READ_BLOCK and WRITE_BLOCK ask before anything else: SEQ = IDLE (R134), INIT_STATE = Ready (R115), and a wire address
that does not overflow (R114). -/
def transferAddress (index : Word32) (s : State) : Except Refusal Word32 :=
  if s.seq = .idle then
    if s.initState = .ready then wireAddress s.cap index else .error .notReady
  else .error .busy

/-- READ_BLOCK (R116). -/
def execReadBlock (index : Word32) (s : State) : Host.Outcome State Fault Refusal :=
  match transferAddress index s with
  | .ok a => request (.readBlock index) (fun s' => s'.goto (.rbSel a)) s
  | .error r => .refused r

/-- WRITE_BLOCK (R121): BUF takes the 512 data bytes before the card is selected:
all 512 offsets are written, so nothing of what BUF held stays. A data operand of another length is refused as
bad_request (R72). -/
def execWriteBlock (index : Word32) (data : List Byte) (s : State) : Host.Outcome State Fault Refusal :=
  if data.length = blockSize then
    match transferAddress index s with
    | .ok a => request (.writeBlock index data) (fun s' => { s' with buf := cellsFrom 0 data }.goto (.wbSel a)) s
    | .error r => .refused r
  else if s.seq = .idle then .refused .badRequest else .refused .busy

end Sys2Proof.Machine
end

