-- ==== Sys2Proof/Machine/WireCommands.lean ====
section
/-!
DEFINITION. The meanings of the eight wire commands (spec/41_framer.md rules R86 to R93). A wire command is issued by the
sequencer, at the label the rule names: its meaning is the whole command there, that is the framer's Cmd (R80: the frame, the
response poll, R1) and what the issuer requires of the response, up to the next label or the end of the operation by an error.
Anywhere else the spec gives it no meaning (R58 "issued by"), and it is refused by name.
-/

namespace Sys2Proof.Machine

/-- Issue the command of c where the sequencer stands at its first byte. -/
def issue (c : Issuer) (s : State) : Host.Outcome State Fault Refusal :=
  if s.seq = .cmd c (.tx 0) then .next (runCommand c s) else .refused .notIssuedHere

/-- CMD0, INIT step 2 (R86). -/
def execCmd0 (s : State) : Host.Outcome State Fault Refusal := issue .iCmd0 s

/-- CMD8, INIT step 3 (R87). -/
def execCmd8 (s : State) : Host.Outcome State Fault Refusal := issue .iCmd8 s

/-- CMD16, INIT step 6 (R88). -/
def execCmd16 (s : State) : Host.Outcome State Fault Refusal := issue .iCmd16 s

/-- CMD17 of a READ_BLOCK (R89). -/
def execCmd17 (arg : Word32) (s : State) : Host.Outcome State Fault Refusal := issue (.rbCmd17 arg) s

/-- CMD24 of a WRITE_BLOCK (R90). -/
def execCmd24 (arg : Word32) (s : State) : Host.Outcome State Fault Refusal := issue (.wbCmd24 arg) s

/-- CMD55, INIT step 4 (R91). -/
def execCmd55 (s : State) : Host.Outcome State Fault Refusal := issue .iCmd55 s

/-- ACMD41, INIT step 4 (R92). -/
def execAcmd41 (s : State) : Host.Outcome State Fault Refusal := issue .iAcmd41 s

/-- CMD58, INIT step 5 (R93). -/
def execCmd58 (s : State) : Host.Outcome State Fault Refusal := issue .iCmd58 s

end Sys2Proof.Machine
end

