-- ==== Sys2Proof/Machine/Dispatch.lean ====
section
/-! DEFINITION. The instruction dispatch: one arm for each constructor of Instr. -/

namespace Sys2Proof.Machine

def exec (i : Instr) (s : State) : Host.Outcome State Fault Refusal :=
  match i with
  | .cmd0 => Sys2Proof.Machine.execCmd0 s
  | .cmd8 => Sys2Proof.Machine.execCmd8 s
  | .cmd16 => Sys2Proof.Machine.execCmd16 s
  | .cmd17 arg => Sys2Proof.Machine.execCmd17 arg s
  | .cmd24 arg => Sys2Proof.Machine.execCmd24 arg s
  | .cmd55 => Sys2Proof.Machine.execCmd55 s
  | .acmd41 => Sys2Proof.Machine.execAcmd41 s
  | .cmd58 => Sys2Proof.Machine.execCmd58 s
  | .crc7 data => Sys2Proof.Machine.execCrc7 data s
  | .sendCommand index arg => Sys2Proof.Machine.execSendCommand index arg s
  | .init => Sys2Proof.Machine.execInit s
  | .readBlock index => Sys2Proof.Machine.execReadBlock index s
  | .writeBlock index data => Sys2Proof.Machine.execWriteBlock index data s

end Sys2Proof.Machine
end

