-- ==== Sys2Proof/WellFormed.lean ====
section
/-!
DEFINITION. Which terms of Instr spell an instruction. The widths of R8 are in the types; the one check left is that a
WRITE_BLOCK's data operand is exactly 512 bytes (spec/30_encoding.md rules R70 and R72). A SEND_COMMAND index above 63 cannot
be written as a term (R8: an index is 6 bits); the decoder refuses the request that spells one.
-/

namespace Sys2Proof

/-- The instruction spells an operation (R72). -/
def Instr.wellFormed : Instr → Bool
  | .cmd0 => true
  | .cmd8 => true
  | .cmd16 => true
  | .cmd17 _ => true
  | .cmd24 _ => true
  | .cmd55 => true
  | .acmd41 => true
  | .cmd58 => true
  | .crc7 _ => true
  | .sendCommand _ _ => true
  | .init => true
  | .readBlock _ => true
  | .writeBlock _ data => data.length == 512

end Sys2Proof
end

