-- ==== Sys2Proof/Decode.lean ====
section
/-!
DEFINITION. The decoder of both encoding surfaces (spec/30_encoding.md), total on any bytes and rejecting by name, and after it
the encoder, written from the same tables.
-/

namespace Sys2Proof

open Sys2Proof.Machine

/-- Why bytes spell no instruction (R72). -/
inductive DecodeError where
  /-- A request with no operation code, or a code other than 0x01 to 0x05. -/
  | unknownOperation
  /-- The operand bytes are not as many as the operation's operands take. -/
  | operandLength
  /-- A SEND_COMMAND index above 63. -/
  | indexAbove63
  /-- A WRITE_BLOCK data operand that is not exactly 512 bytes. -/
  | dataLength
  /-- A frame of no row of the opcode table. -/
  | unknownFrame
  deriving DecidableEq, Repr

/-- The operands of SEND_COMMAND: the index byte, then the argument (R70; layout: notes/assumptions/5.md). -/
def decodeSendCommand : List Byte → Except DecodeError Instr
  | [i, a3, a2, a1, a0] =>
    if i.toNat < 64 then .ok (.sendCommand (i.setWidth 6) (wordBe32 a3 a2 a1 a0)) else .error .indexAbove63
  | _ => .error .operandLength

/-- The operand of READ_BLOCK: the block index (R70). -/
def decodeReadBlock : List Byte → Except DecodeError Instr
  | [i3, i2, i1, i0] => .ok (.readBlock (wordBe32 i3 i2 i1 i0))
  | _ => .error .operandLength

/-- The operands of WRITE_BLOCK: the block index, then exactly 512 data bytes (R70, R72). -/
def decodeWriteBlock : List Byte → Except DecodeError Instr
  | i3 :: i2 :: i1 :: i0 :: data =>
    if data.length = 512 then .ok (.writeBlock (wordBe32 i3 i2 i1 i0) data) else .error .dataLength
  | _ => .error .operandLength

/-- A host operation request: the operation code, then the operands (R70, R72). -/
def decodeRequest : List Byte → Except DecodeError Instr
  | [] => .error .unknownOperation
  | op :: operands =>
    if op = 0x01#8 then .ok (.crc7 operands)
    else if op = 0x02#8 then decodeSendCommand operands
    else if op = 0x03#8 then (if operands = [] then .ok .init else .error .operandLength)
    else if op = 0x04#8 then decodeReadBlock operands
    else if op = 0x05#8 then decodeWriteBlock operands
    else .error .unknownOperation

/-- A command frame, by the match and mask of the eight cmd_frame rows of spec/opcode_table.json: six rows fix all 48 bits, and
CMD17 and CMD24 fix byte 0 and the stop bit (notes/assumptions/6.md: their CRC field is not compared). -/
def decodeFrame : List Byte → Except DecodeError Instr
  | [f0, f1, f2, f3, f4, f5] =>
    if [f0, f1, f2, f3, f4, f5] = [0x40#8, 0x00#8, 0x00#8, 0x00#8, 0x00#8, 0x95#8] then .ok .cmd0
    else if [f0, f1, f2, f3, f4, f5] = [0x48#8, 0x00#8, 0x00#8, 0x01#8, 0xAA#8, 0x87#8] then .ok .cmd8
    else if [f0, f1, f2, f3, f4, f5] = [0x50#8, 0x00#8, 0x00#8, 0x02#8, 0x00#8, 0x15#8] then .ok .cmd16
    else if [f0, f1, f2, f3, f4, f5] = [0x77#8, 0x00#8, 0x00#8, 0x00#8, 0x00#8, 0x65#8] then .ok .cmd55
    else if [f0, f1, f2, f3, f4, f5] = [0x69#8, 0x40#8, 0x00#8, 0x00#8, 0x00#8, 0x77#8] then .ok .acmd41
    else if [f0, f1, f2, f3, f4, f5] = [0x7A#8, 0x00#8, 0x00#8, 0x00#8, 0x00#8, 0xFD#8] then .ok .cmd58
    else if f0 = 0x51#8 ∧ f5.getLsbD 0 = true then .ok (.cmd17 (wordBe32 f1 f2 f3 f4))
    else if f0 = 0x58#8 ∧ f5.getLsbD 0 = true then .ok (.cmd24 (wordBe32 f1 f2 f3 f4))
    else .error .unknownFrame
  | _ => .error .unknownFrame

/-- The decoder of both surfaces. -/
def decode : Code → Except DecodeError Instr
  | .request bytes => decodeRequest bytes
  | .frame bytes => decodeFrame bytes

/-- The encoder: the frame of a wire command (R58, built as R54 to R57 say), the request bytes of a host operation (R70). -/
def encode : Instr → Code
  | .cmd0 => .frame (frameBytes 0#6 0#32)
  | .cmd8 => .frame (frameBytes 8#6 cmd8Arg)
  | .cmd16 => .frame (frameBytes 16#6 cmd16Arg)
  | .cmd17 arg => .frame (frameBytes 17#6 arg)
  | .cmd24 arg => .frame (frameBytes 24#6 arg)
  | .cmd55 => .frame (frameBytes 55#6 0#32)
  | .acmd41 => .frame (frameBytes 41#6 acmd41Arg)
  | .cmd58 => .frame (frameBytes 58#6 0#32)
  | .crc7 data => .request (0x01#8 :: data)
  | .sendCommand index arg => .request (0x02#8 :: index.setWidth 8 :: bytesBe32 arg)
  | .init => .request [0x03#8]
  | .readBlock index => .request (0x04#8 :: bytesBe32 index)
  | .writeBlock index data => .request (0x05#8 :: (bytesBe32 index ++ data))

/-- The n bytes of a number, the least significant first: how spec/opcode_table.json numbers the bits of a request. -/
def bytesLe : Nat → Nat → List Byte
  | 0, _ => []
  | n + 1, w => BitVec.ofNat 8 w :: bytesLe n (w / 256)

/-- How many operand bytes an operation code takes at least (R70): what an operand of zeros is written with. -/
def operandBytes (op : Byte) : Nat :=
  if op = 0x02#8 then 5 else if op = 0x04#8 then 4 else if op = 0x05#8 then 4 + 512 else 0

/-- A request whose first bits are w, every operand byte it does not spell being zero. -/
def zeroExtendedRequest (nbits w : Nat) : List Byte :=
  match bytesLe (nbits / 8) w with
  | [] => []
  | op :: operands => op :: (operands ++ List.replicate (operandBytes op - operands.length) 0#8)

/-- A word of the opcode table as code bytes: a 48-bit row is a command frame with byte 0 in bits 47:40 (spec/30_encoding.md,
opening), any other row a request that begins with its operation code. -/
def codeOfTableWord (nbits w : Nat) : Code :=
  if nbits = 48 then .frame (bytesLe 6 w).reverse else .request (zeroExtendedRequest nbits w)

/-- The instruction the decoder reads from a word of the opcode table. -/
def decodeTableWord (nbits w : Nat) : Option Instr :=
  match decode (codeOfTableWord nbits w) with
  | .ok i => some i
  | .error _ => none

end Sys2Proof
end

