-- ==== Sys2Proof/Machine/Fetch.lean ====
section
/-!
DEFINITION. Where the next instruction comes from. In IDLE it is the host's next request (spec/30_encoding.md rule R70). At the
first byte of a command of INIT, READ_BLOCK or WRITE_BLOCK it is the wire command the sequencer's fixed program names there
(spec/10_state.md rule R33). Anywhere else the sequencer does the primitive of its label.
-/

namespace Sys2Proof.Machine

/-- What a step does next. -/
inductive Fetched where
  /-- An instruction: its code bytes, and the state its meaning starts from. -/
  | code (c : Code) (start : State)
  /-- One primitive of the operation in progress. -/
  | primitive
  /-- Nothing: IDLE with no request (R152: the block waits in IDLE for a request). -/
  | wait
  /-- The sequencer is stuck at a read the spec forbids. -/
  | halted (f : Fault)

/-- What the step of a state does next. -/
def fetch (s : State) : Fetched :=
  match s.seq with
  | .stuck f => .halted f
  | .idle =>
    match s.requests with
    | [] => .wait
    | bytes :: rest => .code (.request bytes) { s with requests := rest }
  | .cmd c (.tx k) =>
    if k.val = 0 then
      match c.wireCommand with
      | some i => .code (encode i) s
      | none => .primitive
    else .primitive
  | _ => .primitive

/-- The label a wire command is issued at. -/
def Seq.ofWireCommand : Instr → Option Seq
  | .cmd0 => some (.cmd .iCmd0 (.tx 0))
  | .cmd8 => some (.cmd .iCmd8 (.tx 0))
  | .cmd16 => some (.cmd .iCmd16 (.tx 0))
  | .cmd17 a => some (.cmd (.rbCmd17 a) (.tx 0))
  | .cmd24 a => some (.cmd (.wbCmd24 a) (.tx 0))
  | .cmd55 => some (.cmd .iCmd55 (.tx 0))
  | .acmd41 => some (.cmd .iAcmd41 (.tx 0))
  | .cmd58 => some (.cmd .iCmd58 (.tx 0))
  | .crc7 _ => none
  | .sendCommand _ _ => none
  | .init => none
  | .readBlock _ => none
  | .writeBlock _ _ => none

/-- The state with the sequencer at the label that issues wire command i, in the first iteration of INIT's poll where the label
stands in it (R31: I_CMD55(n) and I_ACMD41(n) have the index CNT_POLL). -/
def stageWireCommand (l : Seq) (s : State) : State :=
  match s.cntPoll with
  | .written _ => s.goto l
  | .unwritten _ => { s with seq := l, cntPoll := .written 1 }

/-- The state whose next step runs the instruction with these code bytes: a request becomes the host's next one, with SEQ in
IDLE; a frame puts the sequencer at the label that issues the command. Bytes of no frame become an empty request, which spells
no operation. -/
def stageCode (c : Code) (s : State) : State :=
  match c with
  | .request bytes => { s with seq := .idle, requests := bytes :: s.requests }
  | .frame bytes =>
    match decodeFrame bytes with
    | .ok i =>
      match Seq.ofWireCommand i with
      | some l => stageWireCommand l s
      | none => { s with seq := .idle, requests := [] :: s.requests }
    | .error _ => { s with seq := .idle, requests := [] :: s.requests }

end Sys2Proof.Machine
end

