-- ==== Sys2Proof/Machine/Step.lean ====
section
/-!
DEFINITION. One step of the machine. From IDLE a step takes the host's next request and runs the whole operation
(spec/00_scope.md rule R14: an operation has no internal suspension points). In a state with an operation in progress a step runs
the wire command that begins there, or the one primitive of the label.
-/

namespace Sys2Proof.Machine

/-- One step. Bytes that spell no operation are refused (R72). -/
def step (s : State) : Host.Outcome State Fault Refusal :=
  match fetch s with
  | .code c start =>
    match decode c with
    | .ok i => exec i start
    | .error _ => .refused .badRequest
  | .primitive => .next (tick s)
  | .wait => .next s
  | .halted f => .fault f

/-- The state whose very next step runs the instruction of a word of the opcode table. -/
def State.withFetchWord (s : State) (nbits w : Nat) : State := stageCode (codeOfTableWord nbits w) s

end Sys2Proof.Machine
end

