-- ==== Sys2Proof/Machine/HostPrograms.lean ====
section
/-!
DEFINITION. The host's pseudo-operations (spec/30_encoding.md rule R73): the adapter's READ, WRITE and NUM_BLOCKS, which stand
outside the block (spec/00_scope.md rule R4) and expand to READ_BLOCK and WRITE_BLOCK, and running a host program of operations.
No step of the machine uses them.
-/

namespace Sys2Proof.Machine

/-- `READ blocks[0..n-1], start`: READ_BLOCK start, start+1, and so on. An index above 2^32 - 1 is not expressible, and the
expansion refuses it (R73). -/
def expandRead (start : Word32) (n : Nat) : Option (List Instr) :=
  if start.toNat + n ≤ 2 ^ 32 then
    some ((List.range n).map (fun i => .readBlock (start + BitVec.ofNat 32 i)))
  else none

/-- `WRITE blocks[0..n-1], start`: the same with WRITE_BLOCK start+i, blocks[i] (R73). -/
def expandWrite (start : Word32) (blocks : List (List Byte)) : Option (List Instr) :=
  if start.toNat + blocks.length ≤ 2 ^ 32 then
    some (blocks.zipIdx.map (fun (data, i) => .writeBlock (start + BitVec.ofNat 32 i) data))
  else none

/-- `NUM_BLOCKS` expands to no block operation and returns "unsupported" (R73, R48). -/
def numBlocks : Option Nat := none

/-- The operation that ended last reported an error. -/
def State.lastFailed (s : State) : Bool :=
  match s.result with
  | .written r => r.status != .ok
  | .unwritten _ => false

/-- A host program: its operations in order, stopping at the first failing one (R73). -/
def runOperations : List Instr → State → Host.Outcome State Fault Refusal
  | [], s => .next s
  | i :: rest, s =>
    match exec i s with
    | .next t => if t.lastFailed then .next t else runOperations rest t
    | .fault f => .fault f
    | .refused r => .refused r

end Sys2Proof.Machine
end

