-- ==== Sys2Proof/Safety.lean ====
section
/-!
DEFINITION. The terms claims are written in: the invariant of the block (what the registers, the position of the sequencer and the
history have to do with each other), and the scripts of card answers that lead an operation down one path.
-/

namespace Sys2Proof.Machine

/-! ## The invariant -/

/-- FRAME holds a command frame: byte 0 begins with 01, and byte 5 is the CRC-7 of the five bytes before it and the stop bit
(spec/30_encoding.md rules R54 to R57). -/
def Frame.wf (f : Frame) : Prop :=
  f.b0.extractLsb' 6 2 = 0b01#2 ∧ f.b5 = crcStopByte (crc7 [f.b0, f.b1, f.b2, f.b3, f.b4])

/-- What a RESULT can be (spec/10_state.md rule R19; spec/60_exceptions.md rule R131): BadToken is never produced, a step is
named exactly for an error, and a value or busy_exhausted = 1 comes only with status 0. -/
def Result.wf (r : Result) : Prop :=
  r.status ≠ .badToken ∧ (r.status = .ok ↔ r.step = none) ∧
    (r.busyExhausted = true → r.status = .ok ∧ r.value = none) ∧ (r.value ≠ none → r.status = .ok)

/-- A poll counter of a running poll: 1 to its limit (R28). -/
def counting (n : Reg Nat) (limit : Nat) : Prop := ∃ j, n = .written j ∧ 1 ≤ j ∧ j ≤ limit

/-- A poll counter at any time: unwritten, or at most its limit (R28: it never exceeds its limit). -/
def bounded (n : Reg Nat) (limit : Nat) : Prop := ∀ j, n = .written j → j ≤ limit

/-- BUF[0..n-1] have values. -/
def filled (m : Memory) (n : Nat) : Prop := ∀ k, k < n → (m.byteAt k).isSome = true

/-- A wire address a transfer can go out with (spec/20_memory.md rule R45): a multiple of 512 for a standard-capacity card. -/
def addressOk (cap : Cap) (a : Word32) : Prop := cap = .standard → a.toNat % 512 = 0

/-- TAIL[0..n-1] have values. -/
def tailFilled (t : Tail) (n : Nat) : Prop := ∀ k : Fin 4, k.val < n → (t.get k).isWritten = true

/-- INIT is in progress, before its capacity decision or after it (R18, R20, R98). -/
def inInit (s : State) (decided : Bool) : Prop :=
  s.initState = .uninit ∧ s.legacy.isWritten = true ∧ (s.cap = .undefined ↔ decided = false)

/-- A block transfer is in progress (R115). -/
def inTransfer (s : State) : Prop := s.initState = .ready

/-- Outside INIT, CAP has a class exactly when INIT_STATE = Ready (R20, R109). -/
def capSettled (s : State) : Prop := s.cap = .undefined ↔ s.initState ≠ .ready

/-- What holds where a command is issued, by its issuer. -/
def issuerOk (c : Issuer) (s : State) : Prop :=
  match c with
  | .host _ _ => s.csLevel = .high ∧ capSettled s
  | .iCmd0 => s.csLevel = .low ∧ inInit s false
  | .iCmd8 => s.csLevel = .low ∧ inInit s false
  | .iCmd55 => s.csLevel = .low ∧ inInit s false ∧ counting s.cntPoll s.params.ocrPollLimit
  | .iAcmd41 => s.csLevel = .low ∧ inInit s false ∧ counting s.cntPoll s.params.ocrPollLimit
  | .iCmd58 => s.csLevel = .low ∧ inInit s false
  | .iCmd16 => s.csLevel = .low ∧ inInit s true ∧ s.cap = .standard
  | .rbCmd17 a => s.csLevel = .low ∧ inTransfer s ∧ addressOk s.cap a
  | .wbCmd24 a => s.csLevel = .low ∧ inTransfer s ∧ addressOk s.cap a ∧ filled s.buf blockSize

/-- What holds at each position of the framer: FRAME is the issuer's frame once its first byte is out, and CNT_RESP counts while
the response poll runs. -/
def framerOk (c : Issuer) (f : Framer) (s : State) : Prop :=
  match f with
  | .tx k => k.val ≠ 0 → s.frame = .written (frameOf c.index c.arg)
  | .rx => s.frame = .written (frameOf c.index c.arg) ∧ counting s.cntResp s.params.respPollLimit

/-- What holds at each label of the sequencer (R31): the chip-select level (spec/42_init.md rule R110, spec/43_block_transfer.md
rules R120 and R126), the readiness, and that the registers the label reads have values (R38). No run is ever stuck. -/
def labelOk (l : Seq) (s : State) : Prop :=
  match l with
  | .idle => s.csLevel = .high ∧ capSettled s
  | .cRun _ => s.csLevel = .high ∧ capSettled s
  | .cmd c f => issuerOk c s ∧ framerOk c f s
  | .iDesel => s.csLevel = .high ∧ inInit s false
  | .iDummy k => s.csLevel = .high ∧ inInit s false ∧ k < s.params.powerupDummyBytes
  | .iSel => s.csLevel = .high ∧ inInit s false
  | .iCmd8Tail k => s.csLevel = .low ∧ inInit s false ∧ tailFilled s.tail k.val
  | .iOcr k => s.csLevel = .low ∧ inInit s false ∧ tailFilled s.tail k.val
  | .iEnd => s.csLevel = .low ∧ inInit s true
  | .rbSel a => s.csLevel = .high ∧ inTransfer s ∧ addressOk s.cap a
  | .rbToken => s.csLevel = .low ∧ inTransfer s ∧ counting s.cntToken s.params.tokenPollLimit
  | .rbData k => s.csLevel = .low ∧ inTransfer s ∧ filled s.buf k.val
  | .rbCrc _ => s.csLevel = .low ∧ inTransfer s ∧ filled s.buf blockSize
  | .rbEnd => s.csLevel = .low ∧ inTransfer s ∧ filled s.buf blockSize
  | .wbSel a => s.csLevel = .high ∧ inTransfer s ∧ addressOk s.cap a ∧ filled s.buf blockSize
  | .wbGap k => s.csLevel = .low ∧ inTransfer s ∧ filled s.buf blockSize ∧ k < s.params.writeGapBytes
  | .wbToken => s.csLevel = .low ∧ inTransfer s ∧ filled s.buf blockSize
  | .wbData _ => s.csLevel = .low ∧ inTransfer s ∧ filled s.buf blockSize
  | .wbCrc _ => s.csLevel = .low ∧ inTransfer s
  | .wbResp => s.csLevel = .low ∧ inTransfer s
  | .wbBusy => s.csLevel = .low ∧ inTransfer s ∧ counting s.cntBusy s.params.busyPollLimit
  | .wbEnd _ => s.csLevel = .low ∧ inTransfer s
  | .stuck _ => False

/-- The level the pin events of a history leave the pin at; High before the first (R17, R42). -/
def pinLevel : List Event → Level
  | [] => .high
  | .pin l :: _ => l
  | .xfer _ _ _ :: h => pinLevel h
  | .xferFault _ _ :: h => pinLevel h
  | .begun _ :: h => pinLevel h
  | .ended _ :: h => pinLevel h

/-- How many operations a history has begun. -/
def begunCount (h : List Event) : Nat := (h.filter (fun e => match e with | .begun _ => true | _ => false)).length

/-- How many operations a history has ended. -/
def endedCount (h : List Event) : Nat := (h.filter (fun e => match e with | .ended _ => true | _ => false)).length

/-- The invariant of the block. -/
structure BlockInv (s : State) : Prop where
  /-- The instance is this hardware (R6, R168). -/
  params   : s.params.wf = true
  /-- BUF keeps its canonical form. -/
  buf      : s.buf.wf = true
  /-- R1 is never 0xFF once written (R24). -/
  r1       : s.r1 ≠ .written 0xFF#8
  frame    : ∀ f, s.frame = .written f → f.wf
  cntResp  : bounded s.cntResp s.params.respPollLimit
  cntPoll  : bounded s.cntPoll s.params.ocrPollLimit
  cntToken : bounded s.cntToken s.params.tokenPollLimit
  cntBusy  : bounded s.cntBusy s.params.busyPollLimit
  result   : ∀ r, s.result = .written r → r.wf
  /-- When INIT_STATE = Ready, CAP is Standard or High (R115). -/
  ready    : s.initState = .ready → s.cap ≠ .undefined
  /-- CS_LEVEL is what CS_Set last drove (R17). -/
  pin      : s.csLevel = pinLevel s.history
  /-- An operation is in progress exactly while one begun operation has not ended (R150). -/
  balance  : begunCount s.history = endedCount s.history + (if s.seq.running then 1 else 0)
  position : labelOk s.seq s

/-- A step is safe: it keeps the invariant, or it refuses a request (which changes nothing, R134). It never faults. -/
def Safe (o : Host.Outcome State Fault Refusal) : Prop :=
  match o with
  | .next t => BlockInv t
  | .refused _ => True
  | .fault _ => False

/-! ## CRC-7 values as polynomials -/

/-- A register value as a polynomial over the field of two elements, bit j the coefficient of x^j. -/
noncomputable def crcPolynomial (c : CrcValue) : Polynomial (ZMod 2) :=
  ((List.range 7).map (fun j => if c.getLsbD j then (Polynomial.X : Polynomial (ZMod 2)) ^ j else 0)).sum

/-- The generator polynomial x^7 + x^3 + 1 (R5 CRC7_POLY). -/
noncomputable def generatorPolynomial : Polynomial (ZMod 2) :=
  Polynomial.X ^ 7 + Polynomial.X ^ 3 + 1

/-- The polynomial of a sequence of bits, the first bit the highest coefficient. -/
noncomputable def bitsPolynomial (bits : List Bool) : Polynomial (ZMod 2) :=
  bits.foldl (fun p d => p * Polynomial.X + (if d then 1 else 0)) 0

/-- The bits of bytes, most significant bit first (decision D4). -/
def bitsOfBytes (data : List Byte) : List Bool :=
  data.flatMap (fun b => [7, 6, 5, 4, 3, 2, 1, 0].map (fun j => b.getLsbD j))

/-! ## Scripts of card answers -/

/-- Bytes as the answers to exchanges, none of which faults. -/
def bytesAnswered (bs : List Byte) : List Answer := bs.map .byte

/-- How a card answers one command: the six bytes received while the frame goes out, how many 0xFF reads come before the
response, and the response. -/
structure Reply where
  junk  : List Byte
  delay : Nat
  r1    : Byte
  deriving DecidableEq, Repr

/-- The reply is one the framer takes a response from (spec/41_framer.md rule R83). -/
def Reply.ok (limit : Nat) (a : Reply) : Prop := a.junk.length = 6 ∧ a.delay < limit ∧ a.r1 ≠ 0xFF#8

/-- The reply as answers to the exchanges of the command. -/
def Reply.answers (a : Reply) : List Answer :=
  bytesAnswered (a.junk ++ List.replicate a.delay 0xFF#8 ++ [a.r1])

/-- The events of a command that is answered by a reply, in time order (R80 to R83). -/
def Reply.events (cs : Level) (index : CmdIndex) (arg : Word32) (a : Reply) : List Event :=
  List.zipWith (fun out b => .xfer cs out b) (frameBytes index arg) a.junk ++
    List.replicate a.delay (.xfer cs 0xFF#8 0xFF#8) ++ [.xfer cs 0xFF#8 a.r1]

/-- The exchanges of a command that is answered by a reply (R96: 6 + r). -/
def Reply.count (a : Reply) : Nat := 6 + (a.delay + 1)

/-- The state in which the issuer of a command gets its response byte, after a reply: FRAME, CRC, R1 and CNT_RESP written, and
the events appended. -/
def commandReturned (c : Issuer) (a : Reply) (rest : List Answer) (s : State) : State :=
  { s with
    frame := .written (frameOf c.index c.arg)
    crc := .written (frameCrc c.index c.arg)
    r1 := .written a.r1
    cntResp := .written (a.delay + 1)
    seq := .cmd c .rx
    answers := rest
    history := (a.events s.csLevel c.index c.arg).reverse ++ s.history }

/-- The answers to a command the card never answers: six bytes while the frame goes out, then 0xFF at every read. -/
def silence (junk : List Byte) (limit : Nat) : List Answer :=
  bytesAnswered (junk ++ List.replicate limit 0xFF#8)

/-- The events of a command the card never answers, in time order (R84). -/
def silentEvents (cs : Level) (index : CmdIndex) (arg : Word32) (junk : List Byte) (limit : Nat) : List Event :=
  List.zipWith (fun out b => .xfer cs out b) (frameBytes index arg) junk ++ List.replicate limit (.xfer cs 0xFF#8 0xFF#8)

/-- One iteration of INIT's operating-condition poll: the replies to CMD55 and ACMD41 (spec/42_init.md rule R103). -/
structure PollReply where
  cmd55  : Reply
  acmd41 : Reply
  deriving DecidableEq, Repr

def PollReply.ok (limit : Nat) (p : PollReply) : Prop := p.cmd55.ok limit ∧ p.acmd41.ok limit
def PollReply.answers (p : PollReply) : List Answer := p.cmd55.answers ++ p.acmd41.answers
def PollReply.count (p : PollReply) : Nat := p.cmd55.count + p.acmd41.count

/-- The events of one iteration, in time order. -/
def PollReply.events (p : PollReply) : List Event :=
  p.cmd55.events .low 55#6 0#32 ++ p.acmd41.events .low 41#6 acmd41Arg

/-- Reads of filler exchanges at one chip-select level, in time order. -/
def fillerReads (cs : Level) (bs : List Byte) : List Event := bs.map (fun b => .xfer cs 0xFF#8 b)

/-- How a card takes INIT to Ready: the bytes received during the power-up clocking, the replies to CMD0 and CMD8, the tail of
CMD8 (empty for a legacy card), the iterations of the poll before the last and the last, the reply to CMD58, the four OCR bytes,
and the reply to CMD16 (which a high-capacity card is not sent). -/
structure InitScript where
  dummy    : List Byte
  cmd0     : Reply
  cmd8     : Reply
  tail     : List Byte
  notReady : List PollReply
  last     : PollReply
  cmd58    : Reply
  ocr      : List Byte
  cmd16    : Reply
  deriving DecidableEq, Repr

/-- The card answers CMD8 as a legacy card (R101). -/
def InitScript.legacy (x : InitScript) : Bool := illegalCommand x.cmd8.r1

/-- The capacity class of the card: High iff it is not legacy and bit 6 of its first OCR byte is 1 (R106). -/
def InitScript.capacity (x : InitScript) : Cap :=
  if x.legacy = false ∧ (x.ocr.headD 0#8).getLsbD 6 = true then .high else .standard

/-- The script's answers, in the order the exchanges of INIT take them. -/
def InitScript.answers (x : InitScript) : List Answer :=
  bytesAnswered x.dummy ++ x.cmd0.answers ++ x.cmd8.answers ++ bytesAnswered x.tail ++
    x.notReady.flatMap PollReply.answers ++ x.last.answers ++ x.cmd58.answers ++ bytesAnswered x.ocr ++
    (if x.capacity = .standard then x.cmd16.answers else [])

/-- The exchanges of INIT after its CS_Set(Low), in time order. -/
def InitScript.selectedEvents (x : InitScript) : List Event :=
  x.cmd0.events .low 0#6 0#32 ++ x.cmd8.events .low 8#6 cmd8Arg ++ fillerReads .low x.tail ++
    x.notReady.flatMap PollReply.events ++ x.last.events ++ x.cmd58.events .low 58#6 0#32 ++ fillerReads .low x.ocr ++
    (if x.capacity = .standard then x.cmd16.events .low 16#6 cmd16Arg else [])

/-- The events of the INIT, in time order: Begin and End, its three pin events, and its exchanges (R97, R112). -/
def InitScript.events (x : InitScript) : List Event :=
  [.begun .init, .pin .high] ++ fillerReads .high x.dummy ++ [.pin .low] ++ x.selectedEvents ++
    [.pin .high, .ended (okResult false none)]

/-- The number of exchanges (R112). -/
def InitScript.count (x : InitScript) : Nat :=
  x.dummy.length + x.cmd0.count + x.cmd8.count + x.tail.length + (x.notReady.map PollReply.count).sum + x.last.count +
    x.cmd58.count + 4 + (if x.capacity = .standard then x.cmd16.count else 0)

/-- The script takes INIT to Ready (R99 to R107). -/
structure InitScript.ok (p : Params) (x : InitScript) : Prop where
  dummy      : x.dummy.length = p.powerupDummyBytes
  cmd0       : x.cmd0.ok p.respPollLimit
  cmd0R1     : x.cmd0.r1 = 0x01#8
  cmd8       : x.cmd8.ok p.respPollLimit
  tail       : if x.legacy = true then x.tail = [] else ∃ t0 t1, x.tail = [t0, t1, 0x01#8, 0xAA#8]
  notReady   : ∀ q ∈ x.notReady, q.ok p.respPollLimit ∧ q.acmd41.r1 ≠ 0x00#8
  iterations : x.notReady.length < p.ocrPollLimit
  last       : x.last.ok p.respPollLimit
  lastR1     : x.last.acmd41.r1 = 0x00#8
  cmd58      : x.cmd58.ok p.respPollLimit
  cmd58R1    : x.cmd58.r1 = 0x00#8
  ocr        : x.ocr.length = 4
  cmd16      : x.capacity = .standard → x.cmd16.ok p.respPollLimit ∧ x.cmd16.r1 = 0x00#8

/-- How a card takes READ_BLOCK to its end: the reply to CMD17, the bytes skipped before the data token, the 512 payload bytes
and the two CRC bytes (R116 to R119). -/
structure ReadScript where
  cmd17   : Reply
  skipped : List Byte
  data    : List Byte
  crc     : List Byte
  deriving DecidableEq, Repr

def ReadScript.answers (x : ReadScript) : List Answer :=
  x.cmd17.answers ++ bytesAnswered (x.skipped ++ [0xFE#8] ++ x.data ++ x.crc)

/-- The events of the READ_BLOCK of an index with wire address a, in time order. -/
def ReadScript.events (index a : Word32) (x : ReadScript) : List Event :=
  [.begun (.readBlock index), .pin .low] ++ x.cmd17.events .low 17#6 a ++
    fillerReads .low (x.skipped ++ [0xFE#8] ++ x.data ++ x.crc) ++
    [.pin .high, .ended (okResult false (some (.block x.data)))]

/-- The script takes READ_BLOCK to its end. -/
structure ReadScript.ok (p : Params) (x : ReadScript) : Prop where
  cmd17   : x.cmd17.ok p.respPollLimit
  cmd17R1 : x.cmd17.r1 = 0x00#8
  skipped : ∀ b ∈ x.skipped, b ≠ 0xFE#8
  polls   : x.skipped.length < p.tokenPollLimit
  data    : x.data.length = 512
  crc     : x.crc.length = 2

/-- The write data packet as the block sends it (R65). -/
def packetBytes (p : Params) (data : List Byte) : List Byte :=
  List.replicate p.writeGapBytes 0xFF#8 ++ [0xFE#8] ++ data ++ [p.crcPlaceholder0, p.crcPlaceholder1]

/-- How a card takes WRITE_BLOCK past its data packet: the reply to CMD24, the bytes received while the packet goes out, the data
response token, and the bytes of the busy poll (R121 to R125). -/
structure WriteScript where
  cmd24    : Reply
  junk     : List Byte
  response : Byte
  busy     : List Byte
  deriving DecidableEq, Repr

def WriteScript.answers (x : WriteScript) : List Answer :=
  x.cmd24.answers ++ bytesAnswered (x.junk ++ [x.response] ++ x.busy)

/-- The events of the WRITE_BLOCK up to its last exchange, in time order. -/
def WriteScript.events (p : Params) (index a : Word32) (data : List Byte) (x : WriteScript) : List Event :=
  [.begun (.writeBlock index data), .pin .low] ++ x.cmd24.events .low 24#6 a ++
    List.zipWith (fun out b => .xfer .low out b) (packetBytes p data) x.junk ++ fillerReads .low (x.response :: x.busy)

/-- CMD24 is answered 0x00 and the packet goes out whole. -/
structure WriteScript.sent (p : Params) (data : List Byte) (x : WriteScript) : Prop where
  cmd24   : x.cmd24.ok p.respPollLimit
  cmd24R1 : x.cmd24.r1 = 0x00#8
  junk    : x.junk.length = (packetBytes p data).length

/-- The write is accepted and the busy poll ends at a 0xFF within its limit (R124, R125). -/
structure WriteScript.accepted (p : Params) (data : List Byte) (x : WriteScript) : Prop where
  sent     : x.sent p data
  response : x.response.toNat % 16 = 5
  busy     : ∃ bs, x.busy = bs ++ [0xFF#8] ∧ (∀ b ∈ bs, b ≠ 0xFF#8) ∧ bs.length < p.busyPollLimit

/-- The write is accepted and the card stays busy for all the reads of the busy poll (R125). -/
structure WriteScript.staysBusy (p : Params) (data : List Byte) (x : WriteScript) : Prop where
  sent     : x.sent p data
  response : x.response.toNat % 16 = 5
  busy     : (∀ b ∈ x.busy, b ≠ 0xFF#8) ∧ x.busy.length = p.busyPollLimit

/-- The write is rejected by its data response token (R124). -/
structure WriteScript.rejected (p : Params) (data : List Byte) (x : WriteScript) : Prop where
  sent     : x.sent p data
  response : x.response.toNat % 16 ≠ 5
  busy     : x.busy = []

/-! ## Labels and histories -/

/-- Which wire command each label issues, in which operation and with which step tag: the table of R58 ("issued by") and the tags of
R132. -/
inductive IssuedAs : Issuer → Instr → Operation → StepTag → Prop where
  | cmd0 : IssuedAs .iCmd0 .cmd0 .init .sCmd0
  | cmd8 : IssuedAs .iCmd8 .cmd8 .init .sCmd8
  | cmd55 : IssuedAs .iCmd55 .cmd55 .init .sCmd55
  | acmd41 : IssuedAs .iAcmd41 .acmd41 .init .sAcmd41
  | cmd58 : IssuedAs .iCmd58 .cmd58 .init .sCmd58
  | cmd16 : IssuedAs .iCmd16 .cmd16 .init .sCmd16
  | cmd17 (a : Word32) : IssuedAs (.rbCmd17 a) (.cmd17 a) .readBlock .sCmd17
  | cmd24 (a : Word32) : IssuedAs (.wbCmd24 a) (.cmd24 a) .writeBlock .sCmd24

/-- The step tag of a label that makes an exchange (R132); none for the other labels. -/
def Seq.exchangeTag : Seq → Option StepTag
  | .cmd (.host _ _) _ => some .sHostCmd
  | .cmd .iCmd0 _ => some .sCmd0
  | .cmd .iCmd8 _ => some .sCmd8
  | .cmd .iCmd55 _ => some .sCmd55
  | .cmd .iAcmd41 _ => some .sAcmd41
  | .cmd .iCmd58 _ => some .sCmd58
  | .cmd .iCmd16 _ => some .sCmd16
  | .cmd (.rbCmd17 _) _ => some .sCmd17
  | .cmd (.wbCmd24 _) _ => some .sCmd24
  | .iDummy _ => some .sPowerup
  | .iCmd8Tail _ => some .sCmd8Echo
  | .iOcr _ => some .sOcr
  | .rbToken => some .sReadToken
  | .rbData _ => some .sReadData
  | .rbCrc _ => some .sReadData
  | .wbGap _ => some .sWriteData
  | .wbToken => some .sWriteData
  | .wbData _ => some .sWriteData
  | .wbCrc _ => some .sWriteData
  | .wbResp => some .sDataResp
  | .wbBusy => some .sBusy
  | .idle | .cRun _ | .iDesel | .iSel | .iEnd | .rbSel _ | .rbEnd | .wbSel _ | .wbEnd _ | .stuck _ => none

/-- The operation a label belongs to. -/
def Seq.operation : Seq → Option Operation
  | .cRun _ => some .crc7
  | .cmd (.host _ _) _ => some .sendCommand
  | .cmd .iCmd0 _ | .cmd .iCmd8 _ | .cmd .iCmd55 _ | .cmd .iAcmd41 _ | .cmd .iCmd58 _ | .cmd .iCmd16 _ => some .init
  | .cmd (.rbCmd17 _) _ => some .readBlock
  | .cmd (.wbCmd24 _) _ => some .writeBlock
  | .iDesel | .iDummy _ | .iSel | .iCmd8Tail _ | .iOcr _ | .iEnd => some .init
  | .rbSel _ | .rbToken | .rbData _ | .rbCrc _ | .rbEnd => some .readBlock
  | .wbSel _ | .wbGap _ | .wbToken | .wbData _ | .wbCrc _ | .wbResp | .wbBusy | .wbEnd _ => some .writeBlock
  | .idle | .stuck _ => none

/-- Every event of a list is an exchange, completed or faulted, at one chip-select level. -/
def exchangesAt (cs : Level) (es : List Event) : Prop :=
  ∀ e ∈ es, (∃ out b, e = .xfer cs out b) ∨ (∃ out, e = .xferFault cs out)

/-- Every event of a list is a completed exchange at one chip-select level. -/
def completedAt (cs : Level) (es : List Event) : Prop := ∀ e ∈ es, ∃ out b, e = .xfer cs out b

/-- Which error kinds an operation can end with (R133). -/
def mayEndWith : Operation → Status → Bool
  | .crc7, _ => false
  | .sendCommand, k => k == .transportFailure || k == .timeoutResponse
  | .init, k => k == .transportFailure || k == .timeoutResponse || k == .timeoutInitPoll || k == .badResponse || k == .initFailed
  | .readBlock, k => k == .transportFailure || k == .timeoutResponse || k == .timeoutDataToken || k == .badResponse
  | .writeBlock, k => k == .transportFailure || k == .timeoutResponse || k == .badResponse

/-- A run of the sequencer reports the error kind k at step t: RESULT of R137. -/
def failedWith (r : Reg Result) (k : Status) : Prop := ∃ t, r = .written (errorResult k t)

end Sys2Proof.Machine
end

