-- ==== Sys2Proof/Certificates/Slice0/Obligations.lean ====
section
/-!
DEFINITION. The statements for the provers. Each docstring names the rule of spec/ it formalises, or says that it rests on a
decision of spec/92_eei_decisions.md or on a choice of the model (notes/assumptions).
-/

open Sys2Proof Sys2Proof.Machine

/-! ## Encoding -/

/-- Decoding an encoded well-formed instruction gives it back, for every instruction and every operand value (R54 to R58, R70;
the request layout is notes/assumptions/5.md). -/
def Obligations.DecodeOfEncodeIsTheInstruction : Prop :=
  ∀ i : Instr, i.wellFormed = true → decode (encode i) = .ok i

/-- The other direction: a request that decodes spells a well-formed instruction and is that instruction's one encoding; a frame
that decodes is that command's frame, up to the 7-bit CRC field of CMD17 and CMD24, and its stop bit is 1 (R54; which bytes are a
request is notes/assumptions/5.md, and that the CRC field of those two commands is not compared is 6.md). -/
def Obligations.DecodedBytesAreTheEncoding : Prop :=
  (∀ bytes i, decode (.request bytes) = .ok i → i.wellFormed = true ∧ encode i = .request bytes) ∧
  (∀ bytes i, decode (.frame bytes) = .ok i →
    i.wellFormed = true ∧ ∃ sent last, encode i = .frame sent ∧ sent.take 5 = bytes.take 5 ∧ bytes.drop 5 = [last] ∧
      last.getLsbD 0 = true ∧
      (bytes.drop 5 = sent.drop 5 ∨ (∃ a, i = .cmd17 a) ∨ (∃ a, i = .cmd24 a)))

/-- Words written out from the spec's encodings decode to the instructions they stand for: the frames of R58 and of the test
vectors V-FRM-10 and V-FRM-22, and the five operation codes of R70. (That the operands of a word which spells only the code are zeros
is the model's choice, notes/assumptions/16.md.) -/
def Obligations.SpecWordsDecodeToTheirRows : Prop :=
  decodeTableWord 48 0x400000000095 = some .cmd0 ∧ decodeTableWord 48 0x48000001AA87 = some .cmd8 ∧
  decodeTableWord 48 0x500000020015 = some .cmd16 ∧ decodeTableWord 48 0x510000020079 = some (.cmd17 0x200#32) ∧
  decodeTableWord 48 0x58007FFFFFE9 = some (.cmd24 0x7FFFFF#32) ∧ decodeTableWord 48 0x770000000065 = some .cmd55 ∧
  decodeTableWord 48 0x694000000077 = some .acmd41 ∧ decodeTableWord 48 0x7A00000000FD = some .cmd58 ∧
  decodeTableWord 8 0x01 = some (.crc7 []) ∧ decodeTableWord 8 0x02 = some (.sendCommand 0#6 0#32) ∧
  decodeTableWord 8 0x03 = some .init ∧ decodeTableWord 8 0x04 = some (.readBlock 0#32) ∧
  decodeTableWord 8 0x05 = some (.writeBlock 0#32 (List.replicate 512 0#8))

/-- What spells no operation is refused as bad_request, at the step that would take it (R72, R134; decision D2): an operation code
other than 0x01 to 0x05, a SEND_COMMAND index above 63, a WRITE_BLOCK data operand that is not 512 bytes. (Where the index and the operands stand in
the request's bytes is the model's choice, notes/assumptions/5.md.) -/
def Obligations.BadRequestsAreRefused : Prop :=
  ∀ (s : State) (bytes : List Byte) (rest : List (List Byte)), s.seq = .idle → s.requests = bytes :: rest →
    ((∃ op operands, bytes = op :: operands ∧ (op.toNat = 0 ∨ 5 < op.toNat)) ∨
      (∃ index argument, bytes = 0x02#8 :: index :: argument ∧ 63 < index.toNat) ∨
      (∃ index data, bytes = 0x05#8 :: (index ++ data) ∧ index.length = 4 ∧ data.length ≠ 512)) →
    step s = .refused .badRequest

/-- A command frame, field by field. FRAME[1] to FRAME[4] are the argument, most significant byte first (R56), and FRAME[5] is the
CRC-7 of the five bytes before it, shifted left, and a 1 (R57). -/
def Obligations.FrameBytesFollowTheFormat : Prop :=
  ∀ (s : State) (c : Issuer), ∃ f, (loadFrame c s).frame = .written f ∧
    f.b1.toNat = c.arg.toNat / 2 ^ 24 ∧ f.b2.toNat = c.arg.toNat / 2 ^ 16 % 2 ^ 8 ∧
    f.b3.toNat = c.arg.toNat / 2 ^ 8 % 2 ^ 8 ∧ f.b4.toNat = c.arg.toNat % 2 ^ 8 ∧
    f.b5.toNat = 2 * (crc7 [f.b0, f.b1, f.b2, f.b3, f.b4]).toNat + 1

/-- FRAME[0] is 0x40 | index for every command, a host's SEND_COMMAND among them with the host's index and argument, and the frame
the framer sends for a wire command is the one the encoder writes (R55, R68, R81). The values of the two high bits are decision D3. -/
def Obligations.LoadedFrameIsTheEncodedCommand : Prop :=
  ∀ (s : State) (c : Issuer), ∃ f, (loadFrame c s).frame = .written f ∧ f.b0.toNat = 64 + c.index.toNat ∧
    (∀ index arg, c = .host index arg → f.b0.toNat = 64 + index.toNat ∧
      [f.b0, f.b1, f.b2, f.b3, f.b4, f.b5] = frameBytes index arg) ∧
    (∀ i, c.wireCommand = some i → encode i = .frame [f.b0, f.b1, f.b2, f.b3, f.b4, f.b5])

/-! ## The CRC-7 generator -/

/-- One step of the generator: CRC' = ((CRC << 1) & 0x7F) xor (0x09 if (CRC[6] xor d) = 1 else 0), which implements the polynomial
x^7 + x^3 + 1: the step is multiplication by x, with the bit d at x^7, modulo that polynomial (R76). -/
def Obligations.CrcStepImplementsThePolynomial : Prop :=
  ∀ (crc : CrcValue) (d : Bool),
    (crcBit crc d).toNat = (2 * crc.toNat) % 128 ^^^ (if ((crc.toNat / 64 % 2 == 1) ^^ d) = true then 0x09 else 0) ∧
    generatorPolynomial ∣ crcPolynomial (crcBit crc d) +
      (crcPolynomial crc * Polynomial.X + (if d then Polynomial.X ^ 7 else 0))

/-- CRC7 of a byte sequence is the remainder of the message times x^7 on division by x^7 + x^3 + 1: their sum is divisible by it,
and a value of 7 bits has a degree below 7; the generator's constant 0x09 is that polynomial with its x^7 term dropped. (The initial
value 0, the bit order and the constant are decision D4.) -/
def Obligations.CrcIsTheMessageRemainder : Prop :=
  (∀ data : List Byte,
    generatorPolynomial ∣ bitsPolynomial (bitsOfBytes data) * Polynomial.X ^ 7 + crcPolynomial (crc7 data) ∧
    (crcPolynomial (crc7 data)).degree < 7) ∧
  crcPolynomial 0x09#7 + Polynomial.X ^ 7 = generatorPolynomial

/-- CRC7 from IDLE completes with its result: the CRC in RESULT.value and in the CRC register, Begin and End in the history, no
exchange, no pin event, and nothing else changed (R75; the operation code and RESULT's layout are decisions D1, D2, D8). -/
def Obligations.Crc7Completes : Prop :=
  ∀ (s : State) (data : List Byte), s.seq = .idle →
    exec (.crc7 data) s = .next { s with
      crc := .written (crc7 data)
      result := .written { status := .ok, step := none, busyExhausted := false, value := some (.crc (crc7 data)) }
      history := .ended { status := .ok, step := none, busyExhausted := false, value := some (.crc (crc7 data)) } ::
        .begun (.crc7 data) :: s.history }

/-! ## The framer -/

/-- The bytes received while FRAME[0..5] is sent are discarded, whatever their values, and none is taken as the response: after the
six exchanges of the frame the state is the same but for the history's record of those bytes, R1 among it, and the response poll is
about to begin (R95). -/
def Obligations.BytesReceivedDuringTheFrameAreDiscarded : Prop :=
  ∀ (s : State) (c : Issuer) (junk : List Byte) (rest : List Answer),
    s.seq = .cmd c (.tx 0) → junk.length = 6 → s.answers = bytesAnswered junk ++ rest →
    runFor 6 s = { s with
      frame := .written (frameOf c.index c.arg)
      crc := .written (frameCrc c.index c.arg)
      cntResp := .written 1
      seq := .cmd c .rx
      answers := rest
      history := (List.zipWith (fun out b => .xfer s.csLevel out b) (frameBytes c.index c.arg) junk).reverse ++ s.history }

/-- The response poll: each read is one exchange of 0xFF; the first received byte that is not 0xFF ends the poll and becomes R1,
within the limit, which is 8 by default; no further byte is read before the issuer goes on with it (R83). -/
def Obligations.FirstByteNotFillerIsTheResponse : Prop :=
  Params.default.respPollLimit = 8 ∧ ∀ (s : State) (c : Issuer) (delay : Nat) (r : Byte) (rest : List Answer),
    s.seq = .cmd c .rx → s.cntResp = .written 1 → delay < s.params.respPollLimit → r ≠ 0xFF#8 →
    s.answers = bytesAnswered (List.replicate delay 0xFF#8 ++ [r]) ++ rest →
    runFor (delay + 1) s = afterResponse c r { s with
      r1 := .written r
      cntResp := .written (delay + 1)
      answers := rest
      history := .xfer s.csLevel 0xFF#8 r :: (List.replicate delay (.xfer s.csLevel 0xFF#8 0xFF#8) ++ s.history) }

/-- The response timeout: if all RESP_POLL_LIMIT reads return 0xFF, the command fails with TimeoutResponse at its step of
R132; the limit is 8 by default (R84). CMD0 of INIT step 2 is the one exception: its timeout is caught as InitFailed (R80, R100;
decision D9). -/
def Obligations.SilentCardTimesOut : Prop :=
  Params.default.respPollLimit = 8 ∧ ∀ (s : State) (c : Issuer) (tag : StepTag) (rest : List Answer),
    s.seq = .cmd c .rx → s.seq.exchangeTag = some tag → s.cntResp = .written 1 → 1 ≤ s.params.respPollLimit →
    s.answers = bytesAnswered (List.replicate s.params.respPollLimit 0xFF#8) ++ rest →
    (runFor s.params.respPollLimit s).seq = .idle ∧
    (runFor s.params.respPollLimit s).result =
      .written (errorResult (if c = .iCmd0 then .initFailed else .timeoutResponse) tag) ∧
    (runFor s.params.respPollLimit s).answers = rest ∧ (runFor s.params.respPollLimit s).r1 = s.r1

/-- The framer does not manage chip-select and does not retry (R85): while a command runs CS_LEVEL is unchanged and only exchanges are
appended, a command never begins itself again, and the commands of INIT, READ_BLOCK and WRITE_BLOCK run with CS_LEVEL = Low. -/
def Obligations.FramerLeavesChipSelectAlone : Prop :=
  ∀ (s : State) (c : Issuer) (f : Framer), BlockInv s → s.seq = .cmd c f →
    (∀ g, (tick s).seq = .cmd c g → (tick s).csLevel = s.csLevel ∧
      ∃ out received, (tick s).history = .xfer s.csLevel out received :: s.history) ∧
    (tick s).seq ≠ .cmd c (.tx 0) ∧
    (∀ i, c.wireCommand = some i → s.csLevel = .low)

/-- SEND_COMMAND from IDLE with a response: it completes with R1 as its value after 6 + r exchanges under the chip-select level it
found, and changes nothing else (R80; running the framer as a host operation is decision D1). -/
def Obligations.SendCommandReturnsTheResponse : Prop :=
  ∀ (s : State) (index : CmdIndex) (arg : Word32) (a : Reply) (rest : List Answer),
    s.seq = .idle → a.ok s.params.respPollLimit → s.answers = a.answers ++ rest →
    exec (.sendCommand index arg) s = .next { s with
      frame := .written (frameOf index arg)
      crc := .written (frameCrc index arg)
      r1 := .written a.r1
      cntResp := .written (a.delay + 1)
      result := .written { status := .ok, step := none, busyExhausted := false, value := some (.r1 a.r1) }
      answers := rest
      history := .ended { status := .ok, step := none, busyExhausted := false, value := some (.r1 a.r1) } ::
        ((a.events s.csLevel index arg).reverse ++ .begun (.sendCommand index arg) :: s.history) }

/-- SEND_COMMAND from IDLE always completes, whatever the card and the transport do: in IDLE, with a response, a timeout or a
transport fault as its result (R133), after at most 6 + RESP_POLL_LIMIT exchanges (R96), with every register a framer does not write
as it was, CS_LEVEL among them (R85). -/
def Obligations.SendCommandAlwaysCompletes : Prop :=
  ∀ (s : State) (index : CmdIndex) (arg : Word32), s.seq = .idle → 1 ≤ s.params.respPollLimit →
    ∃ t new, exec (.sendCommand index arg) s = .next t ∧ t.seq = .idle ∧
      t.history = new ++ .begun (.sendCommand index arg) :: s.history ∧
      exchangeCount new ≤ 6 + s.params.respPollLimit ∧
      ((∃ r, r ≠ 0xFF#8 ∧ t.r1 = .written r ∧
          t.result = .written { status := .ok, step := none, busyExhausted := false, value := some (.r1 r) }) ∨
        (t.r1 = s.r1 ∧ (t.result = .written (errorResult .timeoutResponse .sHostCmd) ∨
          t.result = .written (errorResult .transportFailure .sHostCmd)))) ∧
      t.csLevel = s.csLevel ∧ t.initState = s.initState ∧ t.cap = s.cap ∧ t.legacy = s.legacy ∧ t.tail = s.tail ∧
      t.buf = s.buf ∧ t.cntPoll = s.cntPoll ∧ t.cntToken = s.cntToken ∧ t.cntBusy = s.cntBusy ∧
      t.requests = s.requests ∧ t.params = s.params

/-! ## The wire commands -/

/-- CMD0 at INIT step 2 completes: R1 = 0x01 goes on to CMD8; any other response is InitFailed at S_CMD0 (R86, R100; the exit is
decisions D14 and D15). -/
def Obligations.Cmd0NeedsTheIdleResponse : Prop :=
  ∀ (s : State) (a : Reply) (rest : List Answer),
    s.seq = .cmd .iCmd0 (.tx 0) → a.ok s.params.respPollLimit → s.answers = a.answers ++ rest →
    exec .cmd0 s = .next (if a.r1 = 0x01#8 then { commandReturned .iCmd0 a rest s with seq := .cmd .iCmd8 (.tx 0) }
      else raise .init .initFailed .sCmd0 (commandReturned .iCmd0 a rest s))

/-- CMD8 at INIT step 3 completes: R1[2] = 1 makes the card legacy and begins the poll with no tail read, and otherwise the tail
follows; no other bit of R1 decides (R87, R101; decision D10). -/
def Obligations.Cmd8DecidesLegacyByBit2 : Prop :=
  ∀ (s : State) (a : Reply) (rest : List Answer),
    s.seq = .cmd .iCmd8 (.tx 0) → a.ok s.params.respPollLimit → s.answers = a.answers ++ rest →
    exec .cmd8 s = .next (if a.r1.toNat / 4 % 2 = 1 then
        { commandReturned .iCmd8 a rest s with legacy := .written true, cntPoll := .written 1, seq := .cmd .iCmd55 (.tx 0) }
      else { commandReturned .iCmd8 a rest s with seq := .iCmd8Tail 0 })

/-- CMD55 at INIT step 4 completes whatever its R1 is, and ACMD41 follows (R91, R103; decision D12). -/
def Obligations.Cmd55IgnoresItsResponse : Prop :=
  ∀ (s : State) (a : Reply) (rest : List Answer),
    s.seq = .cmd .iCmd55 (.tx 0) → a.ok s.params.respPollLimit → s.answers = a.answers ++ rest →
    exec .cmd55 s = .next { commandReturned .iCmd55 a rest s with seq := .cmd .iAcmd41 (.tx 0) }

/-- ACMD41 at INIT step 4 completes: R1 = 0x00 ends the poll, any other response begins the next iteration, and after the last
iteration it is TimeoutInitPoll at S_POLL (R92, R103, R104; decision D12). -/
def Obligations.Acmd41EndsThePollAtReady : Prop :=
  ∀ (s : State) (n : Nat) (a : Reply) (rest : List Answer),
    s.seq = .cmd .iAcmd41 (.tx 0) → s.cntPoll = .written n → a.ok s.params.respPollLimit → s.answers = a.answers ++ rest →
    exec .acmd41 s = .next (if a.r1 = 0x00#8 then { commandReturned .iAcmd41 a rest s with seq := .cmd .iCmd58 (.tx 0) }
      else if n < s.params.ocrPollLimit then
        { commandReturned .iAcmd41 a rest s with cntPoll := .written (n + 1), seq := .cmd .iCmd55 (.tx 0) }
      else raise .init .timeoutInitPoll .sPoll (commandReturned .iAcmd41 a rest s))

/-- CMD58 at INIT step 5 and CMD16 at INIT step 6 complete: R1 = 0x00 goes on to the OCR read and to the end of INIT, and any other
response is BadResponse at their own step (R93, R105, R88, R107; decision D13). -/
def Obligations.Cmd58AndCmd16NeedZero : Prop :=
  (∀ (s : State) (a : Reply) (rest : List Answer),
    s.seq = .cmd .iCmd58 (.tx 0) → a.ok s.params.respPollLimit → s.answers = a.answers ++ rest →
    exec .cmd58 s = .next (if a.r1 = 0x00#8 then { commandReturned .iCmd58 a rest s with seq := .iOcr 0 }
      else raise .init .badResponse .sCmd58 (commandReturned .iCmd58 a rest s))) ∧
  (∀ (s : State) (a : Reply) (rest : List Answer),
    s.seq = .cmd .iCmd16 (.tx 0) → a.ok s.params.respPollLimit → s.answers = a.answers ++ rest →
    exec .cmd16 s = .next (if a.r1 = 0x00#8 then { commandReturned .iCmd16 a rest s with seq := .iEnd }
      else raise .init .badResponse .sCmd16 (commandReturned .iCmd16 a rest s)))

/-- CMD17 of a READ_BLOCK and CMD24 of a WRITE_BLOCK complete: R1 = 0x00 goes on to the data-token poll and to the data packet
(after the gap, if there is one), and any other response is BadResponse at their own step (R89, R117, R90, R122; decisions D7,
D13). -/
def Obligations.Cmd17AndCmd24NeedZero : Prop :=
  (∀ (s : State) (arg : Word32) (a : Reply) (rest : List Answer),
    s.seq = .cmd (.rbCmd17 arg) (.tx 0) → a.ok s.params.respPollLimit → s.answers = a.answers ++ rest →
    exec (.cmd17 arg) s = .next (if a.r1 = 0x00#8 then
        { commandReturned (.rbCmd17 arg) a rest s with cntToken := .written 1, seq := .rbToken }
      else raise .readBlock .badResponse .sCmd17 (commandReturned (.rbCmd17 arg) a rest s))) ∧
  (∀ (s : State) (arg : Word32) (a : Reply) (rest : List Answer),
    s.seq = .cmd (.wbCmd24 arg) (.tx 0) → a.ok s.params.respPollLimit → s.answers = a.answers ++ rest →
    exec (.cmd24 arg) s = .next (if a.r1 = 0x00#8 then
        { commandReturned (.wbCmd24 arg) a rest s with
          seq := if s.params.writeGapBytes = 0 then .wbToken else .wbGap 0 }
      else raise .writeBlock .badResponse .sCmd24 (commandReturned (.wbCmd24 arg) a rest s)))

/-- Every wire command that is never answered ends its operation after 6 + RESP_POLL_LIMIT exchanges (R84, R96), with
TimeoutResponse, or InitFailed for CMD0 (decision D9), at the command's step of R132, and with the exit actions of the operation
that issues it (R58, R137). -/
def Obligations.UnansweredWireCommandEndsItsOperation : Prop :=
  ∀ (s : State) (c : Issuer) (i : Instr) (op : Operation) (tag : StepTag) (junk : List Byte) (rest : List Answer),
    IssuedAs c i op tag → s.seq = .cmd c (.tx 0) → junk.length = 6 → 1 ≤ s.params.respPollLimit →
    s.answers = silence junk s.params.respPollLimit ++ rest →
    exec i s = .next (raise op (if c = .iCmd0 then .initFailed else .timeoutResponse) tag { s with
      frame := .written (frameOf c.index c.arg)
      crc := .written (frameCrc c.index c.arg)
      cntResp := .written s.params.respPollLimit
      seq := .cmd c .rx
      answers := rest
      history := (silentEvents s.csLevel c.index c.arg junk s.params.respPollLimit).reverse ++ s.history })

/-- A transport fault in a wire command, in its frame or in its response poll, ends the operation at that exchange: TransportFailure at
the command's step of R132 (for CMD0 too, not InitFailed), no later byte sent, no response, and the operation's deselect (decisions D9, D14,
D22). -/
def Obligations.WireCommandFaultEndsItsOperation : Prop :=
  ∀ (s : State) (c : Issuer) (i : Instr) (op : Operation) (tag : StepTag) (received : List Byte) (rest : List Answer),
    IssuedAs c i op tag → s.seq = .cmd c (.tx 0) → received.length < 6 + s.params.respPollLimit →
    (∀ b ∈ received.drop 6, b = 0xFF#8) → s.answers = bytesAnswered received ++ .fault :: rest →
    ∃ t out, exec i s = .next t ∧ t.seq = .idle ∧ t.csLevel = .high ∧
      t.result = .written { status := .transportFailure, step := some tag, busyExhausted := false, value := none } ∧
      t.r1 = s.r1 ∧ t.answers = rest ∧
      (frameBytes c.index c.arg ++ List.replicate s.params.respPollLimit 0xFF#8)[received.length]? = some out ∧
      t.history = .ended { status := .transportFailure, step := some tag, busyExhausted := false, value := none } ::
        .pin .high :: .xferFault s.csLevel out ::
          ((List.zipWith (fun out b => .xfer s.csLevel out b)
            (frameBytes c.index c.arg ++ List.replicate s.params.respPollLimit 0xFF#8) received).reverse ++ s.history)

/-- A wire command is refused by name wherever the sequencer does not issue it. That the spec gives it no meaning there is the
model's reading of R58's "issued by" (notes/assumptions/8.md). -/
def Obligations.WireCommandsRunOnlyWhereIssued : Prop :=
  ∀ (s : State) (c : Issuer) (i : Instr), c.wireCommand = some i →
    ((∃ t, exec i s = .next t) ↔ s.seq = .cmd c (.tx 0)) ∧
    (s.seq ≠ .cmd c (.tx 0) → exec i s = .refused .notIssuedHere)

/-! ## Errors -/

/-- What an error does (R137; decisions D14, D15): RESULT takes the kind and the step with busy_exhausted 0 and no value, SEQ goes
to IDLE, and the exit actions of the operation run first: INIT sets Failed and Undefined and deselects, READ_BLOCK and WRITE_BLOCK
deselect, SEND_COMMAND touches no pin. Nothing else changes (R136). -/
def Obligations.ErrorRunsTheExitActions : Prop :=
  ∀ (s : State) (kind : Status) (tag : StepTag),
    let r : Result := { status := kind, step := some tag, busyExhausted := false, value := none }
    raise .sendCommand kind tag s = { s with result := .written r, seq := .idle, history := .ended r :: s.history } ∧
    raise .init kind tag s = { s with
      result := .written r, seq := .idle, initState := .failed, cap := .undefined, csLevel := .high
      history := .ended r :: .pin .high :: s.history } ∧
    (∀ op, op = .readBlock ∨ op = .writeBlock → raise op kind tag s = { s with
      result := .written r, seq := .idle, csLevel := .high, history := .ended r :: .pin .high :: s.history })

/-- A transport fault at any exchange of any operation ends the operation at once with TransportFailure and the step of the label
(R132), and the fault is the last exchange of the history (R135, R136; that any single exchange may fault is decision D22). -/
def Obligations.TransportFaultEndsTheOperation : Prop :=
  ∀ (s : State) (op : Operation) (tag : StepTag), BlockInv s → s.seq.operation = some op → s.seq.exchangeTag = some tag →
    s.nextAnswer = .fault →
    (tick s).seq = .idle ∧ (tick s).result = .written (errorResult .transportFailure tag) ∧
    (∃ out, (tick s).history = .ended (errorResult .transportFailure tag) ::
      ((if op = .sendCommand then [] else [.pin .high]) ++ .xferFault s.csLevel out :: s.history)) ∧
    (tick s).initState = (if op = .init then .failed else s.initState) ∧
    (tick s).cap = (if op = .init then .undefined else s.cap) ∧ (tick s).buf = s.buf ∧ (tick s).tail = s.tail

/-! ## INIT -/

/-- INIT on any card that answers as a script of R99 to R107 says completes Ready: the capacity class by the OCR and the legacy bit,
the chip-select events and every exchange in order, the frames with them, and the exchange count of R112; nothing else changes.
CMD16 is sent exactly to a standard-capacity card. (Decisions D6, D10 to D12, D14, D15.) -/
def Obligations.InitEndsReadyOnAGoodCard : Prop :=
  ∀ (s : State) (x : InitScript) (rest : List Answer),
    s.seq = .idle → x.ok s.params → s.answers = x.answers ++ rest →
    exec .init s = .next { s with
      csLevel := .high
      initState := .ready
      cap := x.capacity
      result := .written { status := .ok, step := none, busyExhausted := false, value := none }
      legacy := .written x.legacy
      crc := .written (if x.capacity = .standard then frameCrc 16#6 cmd16Arg else frameCrc 58#6 0#32)
      frame := .written (if x.capacity = .standard then frameOf 16#6 cmd16Arg else frameOf 58#6 0#32)
      r1 := .written 0x00#8
      tail := { t0 := .written (x.ocr.getD 0 0#8), t1 := .written (x.ocr.getD 1 0#8), t2 := .written (x.ocr.getD 2 0#8),
                t3 := .written (x.ocr.getD 3 0#8) }
      cntResp := .written ((if x.capacity = .standard then x.cmd16.delay else x.cmd58.delay) + 1)
      cntPoll := .written (x.notReady.length + 1)
      answers := rest
      history := x.events.reverse ++ s.history } ∧
    exchangeCount x.events = x.count

/-- INIT from IDLE always completes, whatever the card and the transport do, whatever INIT_STATE was (R111): deselected, in IDLE,
either Ready with a capacity class and status 0, or Failed with CAP = Undefined and an error R133 allows it; the registers INIT does
not write are as they were. (Decisions D14, D15, D28; with a poll budget of 0, which R6 forbids, it rests on the model's choice in
notes/assumptions/18.md.) -/
def Obligations.InitAlwaysCompletes : Prop :=
  ∀ s : State, s.seq = .idle →
    ∃ t, exec .init s = .next t ∧ t.seq = .idle ∧ t.csLevel = .high ∧
      ((t.initState = .ready ∧ t.cap ≠ .undefined ∧
          t.result = .written { status := .ok, step := none, busyExhausted := false, value := none }) ∨
        (t.initState = .failed ∧ t.cap = .undefined ∧ ∃ k, mayEndWith .init k = true ∧ failedWith t.result k)) ∧
      t.buf = s.buf ∧ t.cntToken = s.cntToken ∧ t.cntBusy = s.cntBusy ∧ t.requests = s.requests ∧ t.params = s.params

/-- The echo check: INIT reads TAIL[0..3] by 4 filler exchanges and raises BadResponse at S_CMD8_ECHO unless TAIL[2] = 0x01 and
TAIL[3] = 0xAA; a bad echo never falls back to legacy mode (R102). INIT_STATE = Failed and the
deselect of the failure exit are R109 (decisions D14, D15). -/
def Obligations.BadEchoFailsInit : Prop :=
  ∀ (s : State) (t0 t1 t2 t3 : Byte) (rest : List Answer),
    s.seq = .iCmd8Tail 0 → s.answers = bytesAnswered [t0, t1, t2, t3] ++ rest →
    (runFor 4 s).tail = { t0 := .written t0, t1 := .written t1, t2 := .written t2, t3 := .written t3 } ∧
    (runFor 4 s).answers = rest ∧ (runFor 4 s).legacy = s.legacy ∧
    (if t2 = 0x01#8 ∧ t3 = 0xAA#8 then
      (runFor 4 s).seq = .cmd .iCmd55 (.tx 0) ∧ (runFor 4 s).cntPoll = .written 1 ∧
        (runFor 4 s).history = (fillerReads s.csLevel [t0, t1, t2, t3]).reverse ++ s.history
    else
      (runFor 4 s).seq = .idle ∧ (runFor 4 s).initState = .failed ∧
        (runFor 4 s).result = .written { status := .badResponse, step := some .sCmd8Echo, busyExhausted := false, value := none } ∧
        (runFor 4 s).history =
          .ended { status := .badResponse, step := some .sCmd8Echo, busyExhausted := false, value := none } :: .pin .high ::
            ((fillerReads s.csLevel [t0, t1, t2, t3]).reverse ++ s.history))

/-- Poll exhaustion: after OCR_POLL_LIMIT iterations with no ACMD41 R1 = 0x00, INIT raises TimeoutInitPoll at S_POLL; exactly
OCR_POLL_LIMIT CMD55 frames and OCR_POLL_LIMIT ACMD41 frames have been sent, not fewer and not more; and the block stays usable: a
fresh INIT is accepted (R104). INIT_STATE = Failed and the deselect of the failure exit are R109 (decisions D14, D15), and that INIT is
accepted in any INIT_STATE is decision D28. -/
def Obligations.InitPollFailsAfterExactlyItsLimit : Prop :=
  ∀ (s : State) (polls : List PollReply) (rest : List Answer),
    s.seq = .cmd .iCmd55 (.tx 0) → s.cntPoll = .written 1 → s.csLevel = .low → polls.length = s.params.ocrPollLimit →
    1 ≤ s.params.ocrPollLimit → (∀ q ∈ polls, q.ok s.params.respPollLimit ∧ q.acmd41.r1 ≠ 0x00#8) →
    s.answers = polls.flatMap PollReply.answers ++ rest →
    ∃ t, runToIdle s = t ∧ t.seq = .idle ∧ t.initState = .failed ∧ t.cntPoll = .written s.params.ocrPollLimit ∧
      t.result = .written { status := .timeoutInitPoll, step := some .sPoll, busyExhausted := false, value := none } ∧
      t.history = .ended { status := .timeoutInitPoll, step := some .sPoll, busyExhausted := false, value := none } ::
        .pin .high :: ((polls.flatMap PollReply.events).reverse ++ s.history) ∧
      t.answers = rest ∧ ∃ u, exec .init t = .next u

/-- The capacity decision after the four OCR bytes: CAP is High iff the card is not legacy and TAIL[0][6] = 1, and otherwise
Standard; CMD16 follows only for Standard (R105, R106, R107; the legacy rule is decision D11). -/
def Obligations.OcrAndLegacyDecideTheCapacity : Prop :=
  ∀ (s : State) (legacy : Bool) (o0 o1 o2 o3 : Byte) (rest : List Answer),
    s.seq = .iOcr 0 → s.legacy = .written legacy → s.answers = bytesAnswered [o0, o1, o2, o3] ++ rest →
    runFor 4 s = { s with
      tail := { t0 := .written o0, t1 := .written o1, t2 := .written o2, t3 := .written o3 }
      cap := if legacy = false ∧ o0.toNat / 64 % 2 = 1 then .high else .standard
      seq := if legacy = false ∧ o0.toNat / 64 % 2 = 1 then .iEnd else .cmd .iCmd16 (.tx 0)
      answers := rest
      history := (fillerReads s.csLevel [o0, o1, o2, o3]).reverse ++ s.history }

/-- INIT reads no register an earlier operation left: from two IDLE states with the same inputs and the same parameters, whatever
their registers and histories, it makes the same events and ends with the same result, readiness and capacity class (R111; decisions D15, D28). -/
def Obligations.InitDependsOnTheCardAlone : Prop :=
  ∀ s u : State, s.seq = .idle → u.seq = .idle → s.answers = u.answers → s.draws = u.draws → s.params = u.params →
    ∃ t v new, exec .init s = .next t ∧ exec .init u = .next v ∧
      t.history = new ++ s.history ∧ v.history = new ++ u.history ∧
      t.result = v.result ∧ t.initState = v.initState ∧ t.cap = v.cap ∧ t.csLevel = v.csLevel ∧ t.legacy = v.legacy ∧
      t.answers = v.answers ∧ t.draws = v.draws

/-- The chip-select envelope of any INIT (R99, R108, R109, R110; decision D14): deselect, then the POWERUP_DUMMY_BYTES exchanges while
deselected. If one of them faults it is the last, and INIT ends there with TransportFailure at S_POWERUP; if none faults, select, then
only exchanges while selected. At the end deselect, with no pin event between. -/
def Obligations.InitKeepsTheCardSelected : Prop :=
  ∀ s : State, s.seq = .idle →
    ∃ t r dummy, exec .init s = .next t ∧ completedAt .high dummy ∧
      ((∃ out, dummy.length < s.params.powerupDummyBytes ∧ r = errorResult .transportFailure .sPowerup ∧
          t.events = s.events ++ [.begun .init, .pin .high] ++ dummy ++ [.xferFault .high out, .pin .high, .ended r]) ∨
        ∃ body, exchangesAt .low body ∧ dummy.length = s.params.powerupDummyBytes ∧
          t.events = s.events ++ [.begun .init, .pin .high] ++ dummy ++ [.pin .low] ++ body ++ [.pin .high, .ended r])

/-! ## READ_BLOCK -/

/-- Address translation: for High the wire address is the index; for Standard it is index * 512 below 2^23, and from 2^23 on the
request is refused as addr_overflow, no address wrapping; a request never reaches the translation while CAP is Undefined, in a block
that meets its invariant; and READ_BLOCK and WRITE_BLOCK go out with the same address (R113;
the overflow refusal is R114's decision D17, and the not_ready refusal R115's decision D16). -/
def Obligations.WireAddressIsIndexOrByteOffset : Prop :=
  ∀ index : Word32, wireAddress .high index = .ok index ∧
    (index.toNat < 2 ^ 23 → ∃ a, wireAddress .standard index = .ok a ∧ a.toNat = index.toNat * 512) ∧
    (2 ^ 23 ≤ index.toNat → wireAddress .standard index = .error .addrOverflow) ∧
    (∀ s : State, BlockInv s → s.seq = .idle → s.cap = .undefined → transferAddress index s = .error .notReady) ∧
    (∀ (s : State) (a : Word32) (data : List Byte), s.seq = .idle → s.initState = .ready → data.length = 512 →
      wireAddress s.cap index = .ok a →
      exec (.readBlock index) s = .next (runToIdle { s with
        seq := .rbSel a, history := .begun (.readBlock index) :: s.history }) ∧
      exec (.writeBlock index data) s = .next (runToIdle { s with
        seq := .wbSel a, buf := cellsFrom 0 data, history := .begun (.writeBlock index data) :: s.history }))

/-- READ_BLOCK on any card that answers as R117 to R119 say completes with the 512 payload bytes, in order, as its value and in
BUF, whatever the skipped bytes and the CRC bytes are, and deselects; nothing else changes, CAP and INIT_STATE among it (R127).
(Decisions D14, D16, D18, D25, D29, D37.) -/
def Obligations.ReadBlockReturnsThePayload : Prop :=
  ∀ (s : State) (index a : Word32) (x : ReadScript) (rest : List Answer),
    s.seq = .idle → s.initState = .ready → wireAddress s.cap index = .ok a → s.buf.wf = true → x.ok s.params →
    s.answers = x.answers ++ rest →
    ∃ t, exec (.readBlock index) s = .next t ∧
      t = { s with
        csLevel := .high
        result := .written { status := .ok, step := none, busyExhausted := false, value := some (.block x.data) }
        crc := .written (frameCrc 17#6 a)
        frame := .written (frameOf 17#6 a)
        r1 := .written 0x00#8
        buf := t.buf
        cntResp := .written (x.cmd17.delay + 1)
        cntToken := .written (x.skipped.length + 1)
        answers := rest
        history := (x.events index a).reverse ++ s.history } ∧
      t.buf.wf = true ∧ ∀ k, t.buf.byteAt k = x.data[k]?

/-- READ_BLOCK from IDLE, when Ready and with an address, always completes, whatever the card and the transport do: deselected, in
IDLE, with a block of 512 bytes or an error R133 allows it; INIT_STATE and CAP as they were (R127; decision D25), and every register
READ_BLOCK does not write. (With a poll budget of 0, which R6 forbids, it rests on notes/assumptions/18.md.) -/
def Obligations.ReadBlockAlwaysCompletes : Prop :=
  ∀ (s : State) (index a : Word32), s.seq = .idle → s.initState = .ready → wireAddress s.cap index = .ok a →
    s.buf.wf = true →
    ∃ t, exec (.readBlock index) s = .next t ∧ t.seq = .idle ∧ t.csLevel = .high ∧
      ((∃ data : List Byte, data.length = 512 ∧
          t.result = .written { status := .ok, step := none, busyExhausted := false, value := some (.block data) }) ∨
        (∃ k, mayEndWith .readBlock k = true ∧ failedWith t.result k)) ∧
      t.initState = s.initState ∧ t.cap = s.cap ∧ t.legacy = s.legacy ∧ t.tail = s.tail ∧ t.cntPoll = s.cntPoll ∧
      t.cntBusy = s.cntBusy ∧ t.requests = s.requests ∧ t.params = s.params ∧ t.buf.wf = true

/-- The payload: received byte k after the token is stored in BUF[k], and every other byte of BUF is as it was; so after a READ_BLOCK that
fails in its data phase BUF holds the bytes received before the failure (R119, R129; decisions D31, D37). That the other bytes are
those of earlier operations is the model's choice (notes/assumptions/21.md; U13 calls them any value). -/
def Obligations.ReadDataFillsBufInOrder : Prop :=
  ∀ (s : State) (bytes : List Byte) (rest : List Answer),
    s.seq = .rbData 0 → bytes.length ≤ 512 → s.answers = bytesAnswered bytes ++ rest →
    (∀ k, (runFor bytes.length s).buf.byteAt k = if k < bytes.length then bytes[k]? else s.buf.byteAt k) ∧
    (runFor bytes.length s).seq = (if h : bytes.length < 512 then .rbData ⟨bytes.length, h⟩ else .rbCrc 0) ∧
    (runFor bytes.length s).answers = rest ∧
    (runFor bytes.length s).history = (fillerReads s.csLevel bytes).reverse ++ s.history ∧
    (bytes.length < 512 → (∃ more, rest = .fault :: more) →
      (tick (runFor bytes.length s)).seq = .idle ∧
      (tick (runFor bytes.length s)).result = .written (errorResult .transportFailure .sReadData) ∧
      (tick (runFor bytes.length s)).buf = (runFor bytes.length s).buf)

/-- The data-token poll: TOKEN_POLL_LIMIT reads with no 0xFE end READ_BLOCK with TimeoutDataToken at S_READ_TOKEN, whatever the bytes
are, with no value, the card deselected and the readiness as it was (R118, R129; the exit is decision D14, that other bytes are skipped
is decision D18, and that RESULT.value has no value is decision D31). That BUF, of which this READ_BLOCK received no byte, keeps what
earlier operations left there is the model's choice (notes/assumptions/21.md; U13 calls it any value). -/
def Obligations.TokenPollFailsAfterItsLimit : Prop :=
  ∀ (s : State) (bytes : List Byte) (rest : List Answer),
    s.seq = .rbToken → s.cntToken = .written 1 → bytes.length = s.params.tokenPollLimit → 1 ≤ s.params.tokenPollLimit →
    (∀ b ∈ bytes, b ≠ 0xFE#8) → s.answers = bytesAnswered bytes ++ rest →
    runFor s.params.tokenPollLimit s = { s with
      csLevel := .high
      result := .written { status := .timeoutDataToken, step := some .sReadToken, busyExhausted := false, value := none }
      cntToken := .written s.params.tokenPollLimit
      seq := .idle
      answers := rest
      history := .ended { status := .timeoutDataToken, step := some .sReadToken, busyExhausted := false, value := none } ::
        .pin .high :: ((fillerReads s.csLevel bytes).reverse ++ s.history) }

/-- A host that reads RESULT before any operation has ended gets a fault, and so does one that reads RESULT.value after an error at a
step of READ_BLOCK (R38, R129, R132; decisions D23, D31). Every other read gives the value or none: after a success it is the value the
operation returns, none among them (R19). That RESULT.value is none after an error of another operation is the model's reading of R19
(notes/assumptions/1.md, DEDUCED). -/
def Obligations.ValuelessResultFaults : Prop :=
  State.reset.readResult = .error (.noValue .result) ∧ State.reset.readResultValue = .error (.noValue .result) ∧
  (∀ (s : State) (op : Operation) (k : Status) (t : StepTag), k ≠ .ok →
    (raise op k t s).readResult = .ok (errorResult k t) ∧
    (raise op k t s).readResultValue =
      if t = .sCmd17 ∨ t = .sReadToken ∨ t = .sReadData then .error (.noValue .resultValue) else .ok none) ∧
  (∀ (s : State) (bx : Bool) (v : Option Value), (complete bx v s).readResult = .ok (okResult bx v) ∧
    (complete bx v s).readResultValue = .ok v)

/-! ## WRITE_BLOCK -/

/-- WRITE_BLOCK on a card that accepts the write and becomes ready within the busy poll completes with status 0 and busy_exhausted 0:
CMD24, the data packet with the 512 operand bytes in order, the response token and the poll go over the bus as R121 to R125 say,
BUF holds the operand, and nothing else changes (decisions D7, D14, D16, D19, D21, D37). -/
def Obligations.WriteBlockSendsTheBlock : Prop :=
  ∀ (s : State) (index a : Word32) (data : List Byte) (x : WriteScript) (rest : List Answer),
    s.seq = .idle → s.initState = .ready → wireAddress s.cap index = .ok a → data.length = 512 → x.accepted s.params data →
    s.answers = x.answers ++ rest →
    exec (.writeBlock index data) s = .next { s with
      csLevel := .high
      result := .written { status := .ok, step := none, busyExhausted := false, value := none }
      crc := .written (frameCrc 24#6 a)
      frame := .written (frameOf 24#6 a)
      r1 := .written 0x00#8
      buf := cellsFrom 0 data
      cntResp := .written (x.cmd24.delay + 1)
      cntBusy := .written x.busy.length
      answers := rest
      history := .ended { status := .ok, step := none, busyExhausted := false, value := none } :: .pin .high ::
        ((x.events s.params index a data).reverse ++ s.history) }

/-- The soft condition: a card that stays busy for all BUSY_POLL_LIMIT reads still gives status 0, with busy_exhausted 1, and the card
deselected (R125, R139, R130; the flag is decision D21). -/
def Obligations.BusyCardIsASoftCondition : Prop :=
  ∀ (s : State) (index a : Word32) (data : List Byte) (x : WriteScript) (rest : List Answer),
    s.seq = .idle → s.initState = .ready → wireAddress s.cap index = .ok a → data.length = 512 →
    1 ≤ s.params.busyPollLimit → x.staysBusy s.params data → s.answers = x.answers ++ rest →
    exec (.writeBlock index data) s = .next { s with
      csLevel := .high
      result := .written { status := .ok, step := none, busyExhausted := true, value := none }
      crc := .written (frameCrc 24#6 a)
      frame := .written (frameOf 24#6 a)
      r1 := .written 0x00#8
      buf := cellsFrom 0 data
      cntResp := .written (x.cmd24.delay + 1)
      cntBusy := .written s.params.busyPollLimit
      answers := rest
      history := .ended { status := .ok, step := none, busyExhausted := true, value := none } :: .pin .high ::
        ((x.events s.params index a data).reverse ++ s.history) }

/-- A rejected write: a data response token whose low nibble is not 0b0101 ends WRITE_BLOCK with BadResponse at S_DATA_RESP right
after that one read, with no busy poll, and the card is deselected (R124; that no busy poll runs is decision D20). -/
def Obligations.RejectedWriteDeselectsAtOnce : Prop :=
  ∀ (s : State) (index a : Word32) (data : List Byte) (x : WriteScript) (rest : List Answer),
    s.seq = .idle → s.initState = .ready → wireAddress s.cap index = .ok a → data.length = 512 → x.rejected s.params data →
    s.answers = x.answers ++ rest →
    exec (.writeBlock index data) s = .next { s with
      csLevel := .high
      result := .written { status := .badResponse, step := some .sDataResp, busyExhausted := false, value := none }
      crc := .written (frameCrc 24#6 a)
      frame := .written (frameOf 24#6 a)
      r1 := .written 0x00#8
      buf := cellsFrom 0 data
      cntResp := .written (x.cmd24.delay + 1)
      answers := rest
      history := .ended { status := .badResponse, step := some .sDataResp, busyExhausted := false, value := none } ::
        .pin .high :: ((x.events s.params index a data).reverse ++ s.history) }

/-- The busy wait: each poll is one exchange of 0xFF, the poll ends at the first received 0xFF, and after BUSY_POLL_LIMIT reads with no
0xFF (30000 by default) the write goes on to its exit; either way it returns status 0 (R125). -/
def Obligations.BusyWaitEndsWithStatusZero : Prop :=
  Params.default.busyPollLimit = 30000 ∧ ∀ (s : State) (bytes : List Byte) (rest : List Answer),
    s.seq = .wbBusy → s.cntBusy = .written 1 → (∀ b ∈ bytes, b ≠ 0xFF#8) →
    (bytes.length < s.params.busyPollLimit → s.answers = bytesAnswered (bytes ++ [0xFF#8]) ++ rest →
      (runFor (bytes.length + 2) s).seq = .idle ∧ (runFor (bytes.length + 2) s).answers = rest ∧
      ∃ r, r.status = .ok ∧ (runFor (bytes.length + 2) s).result = .written r ∧
        (runFor (bytes.length + 2) s).history = .ended r :: .pin .high ::
          ((fillerReads s.csLevel (bytes ++ [0xFF#8])).reverse ++ s.history)) ∧
    (bytes.length = s.params.busyPollLimit → 1 ≤ s.params.busyPollLimit → s.answers = bytesAnswered bytes ++ rest →
      (runFor (bytes.length + 1) s).seq = .idle ∧ (runFor (bytes.length + 1) s).answers = rest ∧
      ∃ r, r.status = .ok ∧ (runFor (bytes.length + 1) s).result = .written r ∧
        (runFor (bytes.length + 1) s).history = .ended r :: .pin .high ::
          ((fillerReads s.csLevel bytes).reverse ++ s.history))

/-- WRITE_BLOCK from IDLE, when Ready, with an address and 512 data bytes, always completes, whatever the card and the transport do:
deselected, in IDLE, with status 0 or an error R133 allows it; INIT_STATE and CAP as they were (R127; decision D25), BUF holding the
operand, and every register WRITE_BLOCK does not write as it was. (With a poll budget of 0, which R6 forbids, it rests on
notes/assumptions/18.md.) -/
def Obligations.WriteBlockAlwaysCompletes : Prop :=
  ∀ (s : State) (index a : Word32) (data : List Byte), s.seq = .idle → s.initState = .ready →
    wireAddress s.cap index = .ok a → data.length = 512 →
    ∃ t, exec (.writeBlock index data) s = .next t ∧ t.seq = .idle ∧ t.csLevel = .high ∧
      ((∃ bx, t.result = .written { status := .ok, step := none, busyExhausted := bx, value := none }) ∨
        (∃ k, mayEndWith .writeBlock k = true ∧ failedWith t.result k)) ∧
      (∀ k, t.buf.byteAt k = data[k]?) ∧
      t.initState = s.initState ∧ t.cap = s.cap ∧ t.legacy = s.legacy ∧ t.tail = s.tail ∧ t.cntPoll = s.cntPoll ∧
      t.cntToken = s.cntToken ∧ t.requests = s.requests ∧ t.params = s.params

/-- The chip-select envelope of any block transfer (R120, R126, R128; decision D14): select, then only exchanges while selected, then
deselect, and no other pin event. -/
def Obligations.BlockTransfersKeepTheCardSelected : Prop :=
  ∀ (s t : State) (i : Instr), s.seq = .idle → s.buf.wf = true →
    ((∃ index, i = .readBlock index) ∨ ∃ index data, i = .writeBlock index data) → exec i s = .next t →
    ∃ r body, exchangesAt .low body ∧ t.events = s.events ++ [.begun i, .pin .low] ++ body ++ [.pin .high, .ended r]

/-! ## Refusals -/

/-- When the block transfers are refused, in an IDLE block: not_ready unless INIT_STATE = Ready (R115, decision D16), and addr_overflow
for a standard-capacity index of 2^23 or more (R114, decision D17). WRITE_BLOCK's data operand of another length than 512 is
bad_request before either (R72; the order is notes/assumptions/9.md). -/
def Obligations.BlockTransfersAreRefused : Prop :=
  ∀ (s : State) (index : Word32) (data : List Byte), s.seq = .idle →
    (s.initState ≠ .ready → exec (.readBlock index) s = .refused .notReady ∧
      (data.length = 512 → exec (.writeBlock index data) s = .refused .notReady)) ∧
    (s.initState = .ready → s.cap = .standard → 2 ^ 23 ≤ index.toNat → exec (.readBlock index) s = .refused .addrOverflow ∧
      (data.length = 512 → exec (.writeBlock index data) s = .refused .addrOverflow)) ∧
    (data.length ≠ 512 → exec (.writeBlock index data) s = .refused .badRequest)

/-- Any host operation while SEQ is not IDLE is refused as busy, whatever its operands are (R134; decision D24). That busy is the reason
where bad_request, not_ready or addr_overflow applies too is the model's choice (notes/assumptions/9.md). -/
def Obligations.RequestsWhileRunningAreBusy : Prop :=
  ∀ (s : State) (i : Instr), s.seq ≠ .idle →
    ((∃ data, i = .crc7 data) ∨ (∃ index arg, i = .sendCommand index arg) ∨ i = .init ∨ (∃ index, i = .readBlock index) ∨
      ∃ index data, i = .writeBlock index data) →
    exec i s = .refused .busy

/-! ## The machine -/

/-- After reset: SEQ = IDLE, CS_LEVEL = High, INIT_STATE = Uninit, CAP = Undefined, and RESULT and every scratch register not written
since reset, that is "no value" (R37, R38, R152; decision D23), with the default parameters of R6 and R7. That reset takes the default
parameters is notes/assumptions/3.md, and that every unwritten register holds zero is the model's choice (notes/assumptions/1.md). -/
def Obligations.ResetLeavesTheSpecsValues : Prop :=
  State.reset.seq = .idle ∧ State.reset.csLevel = .high ∧ State.reset.initState = .uninit ∧ State.reset.cap = .undefined ∧
  State.reset.result = .unwritten { status := .ok, step := none, busyExhausted := false, value := none } ∧
  State.reset.legacy = .unwritten false ∧ State.reset.crc = .unwritten 0#7 ∧
  State.reset.frame = .unwritten { b0 := 0#8, b1 := 0#8, b2 := 0#8, b3 := 0#8, b4 := 0#8, b5 := 0#8 } ∧
  State.reset.r1 = .unwritten 0#8 ∧ (∀ k, State.reset.tail.get k = .unwritten 0#8) ∧
  (∀ k, State.reset.buf.byteAt k = none ∧ State.reset.buf.holds k = 0#8) ∧
  State.reset.cntResp = .unwritten 0 ∧ State.reset.cntPoll = .unwritten 0 ∧ State.reset.cntToken = .unwritten 0 ∧
  State.reset.cntBusy = .unwritten 0 ∧
  State.reset.params.respPollLimit = 8 ∧ State.reset.params.ocrPollLimit = 2000 ∧
  State.reset.params.tokenPollLimit = 10000 ∧ State.reset.params.busyPollLimit = 30000 ∧
  State.reset.params.powerupDummyBytes = 10 ∧ State.reset.params.writeGapBytes = 0 ∧
  State.reset.params.crcPlaceholder0 = 0xFF#8 ∧ State.reset.params.crcPlaceholder1 = 0xFF#8

/-- The state after reset meets the invariant of the block. -/
def Obligations.ResetMeetsTheInvariant : Prop := BlockInv State.reset

/-- Every step keeps the invariant of the block: BUF in canonical form, R1 never 0xFF (R24), FRAME a command frame, the counters at
most their limits (R28), a well-formed RESULT (R19), CAP defined exactly when Ready outside INIT (R115), CS_LEVEL the level last
driven (R17), one End for each Begin (R150), and what holds at each label of the sequencer. -/
def Obligations.StepKeepsTheInvariant : Prop :=
  ∀ s t : State, BlockInv s → step s = .next t → BlockInv t

/-- No rule reads a register the same operation has not written before (R38): from a state that meets the invariant no step faults,
and none makes the sequencer stuck. -/
def Obligations.NoStepFaultsUnderTheInvariant : Prop :=
  ∀ s : State, BlockInv s → Safe (step s) ∧ ∀ f, (tick s).seq ≠ .stuck f

/-- The end of an operation (R150): from any state with an operation in progress that meets the invariant, the sequencer comes to the
end after finitely many primitives. Before that the operation is running and no End has been appended; at that point its End(RESULT)
is the newest event, SEQ = IDLE and CS_LEVEL = High. That this is the state the model's whole operation gives says that the model's
own budget suffices (notes/assumptions/19.md). -/
def Obligations.EveryOperationEnds : Prop :=
  ∀ s : State, BlockInv s → s.seq.running = true →
    ∃ n, (∀ m, m < n → (runFor m s).seq.running = true ∧ endedCount (runFor m s).history = endedCount s.history) ∧
      (runFor n s).seq = .idle ∧ (runFor n s).csLevel = .high ∧
      (∃ r rest, (runFor n s).history = .ended r :: rest ∧ (runFor n s).result = .written r) ∧
      runToIdle s = runFor n s

/-- Stepping an operation in progress, wire command by wire command and primitive by primitive, comes to the state its meaning gives
in one step (R14, R32, R165): the steps of the machine refine the whole operation. What one step is, is the model's choice
(notes/assumptions/4.md). -/
def Obligations.StepsOfAnOperationReachItsMeaning : Prop :=
  ∀ s : State, BlockInv s → s.seq.running = true →
    ∃ k, Host.Core.run Sys2Proof.core k s = .next (runToIdle s)

/-- A step of an IDLE block runs the instruction its next request decodes to, whole, on the state without that request. That one step
takes a request and runs the whole operation is the model's choice (notes/assumptions/4.md), and so are the request's bytes (5.md). -/
def Obligations.StepRunsTheDecodedRequest : Prop :=
  ∀ (s : State) (bytes : List Byte) (rest : List (List Byte)) (i : Instr),
    s.seq = .idle → s.requests = bytes :: rest → decode (.request bytes) = .ok i →
    step s = exec i { s with requests := rest }

/-- A step at any label of an operation does the one primitive of the label (R32), but for the first byte of a command of INIT,
READ_BLOCK or WRITE_BLOCK, where one step runs that whole wire command: the model's choice (notes/assumptions/4.md). An IDLE block with
no request waits (R152); that the wait is a step which answers the same state is the model's choice too (notes/assumptions/13.md). -/
def Obligations.StepFollowsTheSequencer : Prop :=
  (∀ (s : State) (c : Issuer) (i : Instr), c.wireCommand = some i → s.seq = .cmd c (.tx 0) → step s = exec i s) ∧
  (∀ s : State, s.seq.running = true → (∀ c i, c.wireCommand = some i → s.seq ≠ .cmd c (.tx 0)) → step s = .next (tick s)) ∧
  (∀ s : State, s.seq = .idle → s.requests = [] → step s = .next s)

/-- The history only grows: no step rewrites or drops an event (R30, R47), and no step changes the parameters (R35). -/
def Obligations.HistoryOnlyGrows : Prop :=
  ∀ s t : State, step s = .next t → (∃ new, t.history = new ++ s.history) ∧ t.params = s.params

/-- One primitive, one exchange at most (R32, R165): a step of the sequencer appends at most one exchange, and takes an answer exactly
when it does. -/
def Obligations.PrimitiveMakesAtMostOneExchange : Prop :=
  ∀ s : State, ∃ new, (tick s).history = new ++ s.history ∧
    ((exchangeCount new = 0 ∧ (tick s).answers = s.answers ∧ (tick s).draws = s.draws) ∨
      (exchangeCount new = 1 ∧ (tick s).answers = s.answers.tail ∧
        (tick s).draws = s.draws + (if s.answers = [] then 1 else 0)))

/-- READ and WRITE of a host program expand to READ_BLOCK and WRITE_BLOCK of consecutive indices, and are refused exactly where an index
would pass 2^32 - 1 (R73; that the adapter is host software is decision D36). -/
def Obligations.ReadAndWriteExpandToConsecutiveBlocks : Prop :=
  (∀ (start : Word32) (n : Nat),
    (start.toNat + n ≤ 2 ^ 32 → ∃ is, expandRead start n = some is ∧ is.length = n ∧
      ∀ k, k < n → ∃ index : Word32, is[k]? = some (.readBlock index) ∧ index.toNat = start.toNat + k) ∧
    (2 ^ 32 < start.toNat + n → expandRead start n = none)) ∧
  (∀ (start : Word32) (blocks : List (List Byte)),
    (start.toNat + blocks.length ≤ 2 ^ 32 → ∃ is, expandWrite start blocks = some is ∧ is.length = blocks.length ∧
      ∀ k data, blocks[k]? = some data →
        ∃ index : Word32, is[k]? = some (.writeBlock index data) ∧ index.toNat = start.toNat + k) ∧
    (2 ^ 32 < start.toNat + blocks.length → expandWrite start blocks = none))
end

