-- ==== Sys2Proof/Laws/Decode.lean ====
section
/-!
SUPPORT. The byte sequences of the encodings: big-endian words, the lengths of a frame and of its parts, and the shape of its first
and last byte.
-/

namespace Sys2Proof.Machine

/-- Four big-endian bytes of a word make the word again (R10). -/
theorem wordBe32_of_bytes (v : Word32) :
    wordBe32 (v.extractLsb' 24 8) (v.extractLsb' 16 8) (v.extractLsb' 8 8) (v.extractLsb' 0 8) = v := by
  apply BitVec.eq_of_toNat_eq
  simp only [wordBe32, BitVec.toNat_append, BitVec.extractLsb'_toNat, Nat.shiftRight_eq_div_pow]
  have := v.isLt
  rw [← Nat.shiftLeft_add_eq_or_of_lt (by omega), ← Nat.shiftLeft_add_eq_or_of_lt (by omega),
    ← Nat.shiftLeft_add_eq_or_of_lt (by omega)]
  simp only [Nat.shiftLeft_eq]
  omega

/-- The big-endian bytes of a word made of four bytes are those bytes. -/
theorem bytesBe32_of_word (b0 b1 b2 b3 : Byte) : bytesBe32 (wordBe32 b0 b1 b2 b3) = [b0, b1, b2, b3] := by
  have e : ∀ (i : Nat) (b : Byte), (wordBe32 b0 b1 b2 b3).toNat / 2 ^ i % 2 ^ 8 = b.toNat →
      (wordBe32 b0 b1 b2 b3).extractLsb' i 8 = b := by
    intro i b h
    apply BitVec.eq_of_toNat_eq
    rw [BitVec.extractLsb'_toNat, Nat.shiftRight_eq_div_pow, h]
  have w : (wordBe32 b0 b1 b2 b3).toNat = ((b0.toNat * 256 + b1.toNat) * 256 + b2.toNat) * 256 + b3.toNat := by
    have := b0.isLt; have := b1.isLt; have := b2.isLt; have := b3.isLt
    simp only [wordBe32, BitVec.toNat_append]
    rw [← Nat.shiftLeft_add_eq_or_of_lt (by omega), ← Nat.shiftLeft_add_eq_or_of_lt (by omega),
      ← Nat.shiftLeft_add_eq_or_of_lt (by omega)]
    simp only [Nat.shiftLeft_eq]
  have := b0.isLt; have := b1.isLt; have := b2.isLt; have := b3.isLt
  simp only [bytesBe32]
  rw [e 24 b0 (by omega), e 16 b1 (by omega), e 8 b2 (by omega), e 0 b3 (by omega)]

theorem bytesBe32_length (v : Word32) : (bytesBe32 v).length = 4 := rfl
theorem frameBytes_length (index : CmdIndex) (arg : Word32) : (frameBytes index arg).length = 6 := rfl

/-- FRAME's bytes are the bytes of `frameBytes`, in order (R81). -/
theorem frameBytes_eq (index : CmdIndex) (arg : Word32) :
    frameBytes index arg = [commandByte index, arg.extractLsb' 24 8, arg.extractLsb' 16 8, arg.extractLsb' 8 8,
      arg.extractLsb' 0 8, crcStopByte (frameCrc index arg)] := rfl

/-- FRAME[0] is 0x40 | index (R55). -/
theorem commandByte_toNat (index : CmdIndex) : (commandByte index).toNat = 64 + index.toNat := by
  have := index.isLt
  simp only [commandByte, BitVec.toNat_append]
  rw [← Nat.shiftLeft_add_eq_or_of_lt (by omega)]
  rfl

/-- FRAME[5] is the CRC shifted left, and the stop bit 1 (R57). -/
theorem crcStopByte_toNat (crc : CrcValue) : (crcStopByte crc).toNat = 2 * crc.toNat + 1 := by
  simp only [crcStopByte, BitVec.toNat_append]
  rw [← Nat.shiftLeft_add_eq_or_of_lt (by decide)]
  simp only [Nat.shiftLeft_eq]
  simp [Nat.mul_comm]

end Sys2Proof.Machine
end

