-- ==== Sys2Proof/Laws/State.lean ====
section
/-!
SUPPORT. The fields of the state after each of the shared updates of Machine/Ops.lean: one lemma for each field of each update.
-/

namespace Sys2Proof.Machine

/-! ## log, goto, stop -/

@[simp] theorem log_csLevel (s : State) (e : Event) : (s.log e).csLevel = s.csLevel := rfl
@[simp] theorem log_initState (s : State) (e : Event) : (s.log e).initState = s.initState := rfl
@[simp] theorem log_cap (s : State) (e : Event) : (s.log e).cap = s.cap := rfl
@[simp] theorem log_result (s : State) (e : Event) : (s.log e).result = s.result := rfl
@[simp] theorem log_legacy (s : State) (e : Event) : (s.log e).legacy = s.legacy := rfl
@[simp] theorem log_crc (s : State) (e : Event) : (s.log e).crc = s.crc := rfl
@[simp] theorem log_frame (s : State) (e : Event) : (s.log e).frame = s.frame := rfl
@[simp] theorem log_r1 (s : State) (e : Event) : (s.log e).r1 = s.r1 := rfl
@[simp] theorem log_tail (s : State) (e : Event) : (s.log e).tail = s.tail := rfl
@[simp] theorem log_buf (s : State) (e : Event) : (s.log e).buf = s.buf := rfl
@[simp] theorem log_cntResp (s : State) (e : Event) : (s.log e).cntResp = s.cntResp := rfl
@[simp] theorem log_cntPoll (s : State) (e : Event) : (s.log e).cntPoll = s.cntPoll := rfl
@[simp] theorem log_cntToken (s : State) (e : Event) : (s.log e).cntToken = s.cntToken := rfl
@[simp] theorem log_cntBusy (s : State) (e : Event) : (s.log e).cntBusy = s.cntBusy := rfl
@[simp] theorem log_seq (s : State) (e : Event) : (s.log e).seq = s.seq := rfl
@[simp] theorem log_history (s : State) (e : Event) : (s.log e).history = e :: s.history := rfl
@[simp] theorem log_answers (s : State) (e : Event) : (s.log e).answers = s.answers := rfl
@[simp] theorem log_draws (s : State) (e : Event) : (s.log e).draws = s.draws := rfl
@[simp] theorem log_requests (s : State) (e : Event) : (s.log e).requests = s.requests := rfl
@[simp] theorem log_params (s : State) (e : Event) : (s.log e).params = s.params := rfl

@[simp] theorem goto_csLevel (s : State) (l : Seq) : (s.goto l).csLevel = s.csLevel := rfl
@[simp] theorem goto_initState (s : State) (l : Seq) : (s.goto l).initState = s.initState := rfl
@[simp] theorem goto_cap (s : State) (l : Seq) : (s.goto l).cap = s.cap := rfl
@[simp] theorem goto_result (s : State) (l : Seq) : (s.goto l).result = s.result := rfl
@[simp] theorem goto_legacy (s : State) (l : Seq) : (s.goto l).legacy = s.legacy := rfl
@[simp] theorem goto_crc (s : State) (l : Seq) : (s.goto l).crc = s.crc := rfl
@[simp] theorem goto_frame (s : State) (l : Seq) : (s.goto l).frame = s.frame := rfl
@[simp] theorem goto_r1 (s : State) (l : Seq) : (s.goto l).r1 = s.r1 := rfl
@[simp] theorem goto_tail (s : State) (l : Seq) : (s.goto l).tail = s.tail := rfl
@[simp] theorem goto_buf (s : State) (l : Seq) : (s.goto l).buf = s.buf := rfl
@[simp] theorem goto_cntResp (s : State) (l : Seq) : (s.goto l).cntResp = s.cntResp := rfl
@[simp] theorem goto_cntPoll (s : State) (l : Seq) : (s.goto l).cntPoll = s.cntPoll := rfl
@[simp] theorem goto_cntToken (s : State) (l : Seq) : (s.goto l).cntToken = s.cntToken := rfl
@[simp] theorem goto_cntBusy (s : State) (l : Seq) : (s.goto l).cntBusy = s.cntBusy := rfl
@[simp] theorem goto_seq (s : State) (l : Seq) : (s.goto l).seq = l := rfl
@[simp] theorem goto_history (s : State) (l : Seq) : (s.goto l).history = s.history := rfl
@[simp] theorem goto_answers (s : State) (l : Seq) : (s.goto l).answers = s.answers := rfl
@[simp] theorem goto_draws (s : State) (l : Seq) : (s.goto l).draws = s.draws := rfl
@[simp] theorem goto_requests (s : State) (l : Seq) : (s.goto l).requests = s.requests := rfl
@[simp] theorem goto_params (s : State) (l : Seq) : (s.goto l).params = s.params := rfl

@[simp] theorem stop_csLevel (s : State) (f : Fault) : (s.stop f).csLevel = s.csLevel := rfl
@[simp] theorem stop_initState (s : State) (f : Fault) : (s.stop f).initState = s.initState := rfl
@[simp] theorem stop_cap (s : State) (f : Fault) : (s.stop f).cap = s.cap := rfl
@[simp] theorem stop_result (s : State) (f : Fault) : (s.stop f).result = s.result := rfl
@[simp] theorem stop_legacy (s : State) (f : Fault) : (s.stop f).legacy = s.legacy := rfl
@[simp] theorem stop_crc (s : State) (f : Fault) : (s.stop f).crc = s.crc := rfl
@[simp] theorem stop_frame (s : State) (f : Fault) : (s.stop f).frame = s.frame := rfl
@[simp] theorem stop_r1 (s : State) (f : Fault) : (s.stop f).r1 = s.r1 := rfl
@[simp] theorem stop_tail (s : State) (f : Fault) : (s.stop f).tail = s.tail := rfl
@[simp] theorem stop_buf (s : State) (f : Fault) : (s.stop f).buf = s.buf := rfl
@[simp] theorem stop_cntResp (s : State) (f : Fault) : (s.stop f).cntResp = s.cntResp := rfl
@[simp] theorem stop_cntPoll (s : State) (f : Fault) : (s.stop f).cntPoll = s.cntPoll := rfl
@[simp] theorem stop_cntToken (s : State) (f : Fault) : (s.stop f).cntToken = s.cntToken := rfl
@[simp] theorem stop_cntBusy (s : State) (f : Fault) : (s.stop f).cntBusy = s.cntBusy := rfl
@[simp] theorem stop_seq (s : State) (f : Fault) : (s.stop f).seq = .stuck f := rfl
@[simp] theorem stop_history (s : State) (f : Fault) : (s.stop f).history = s.history := rfl
@[simp] theorem stop_answers (s : State) (f : Fault) : (s.stop f).answers = s.answers := rfl
@[simp] theorem stop_draws (s : State) (f : Fault) : (s.stop f).draws = s.draws := rfl
@[simp] theorem stop_requests (s : State) (f : Fault) : (s.stop f).requests = s.requests := rfl
@[simp] theorem stop_params (s : State) (f : Fault) : (s.stop f).params = s.params := rfl

/-! ## csSet -/

@[simp] theorem csSet_csLevel (l : Level) (s : State) : (csSet l s).csLevel = l := rfl
@[simp] theorem csSet_initState (l : Level) (s : State) : (csSet l s).initState = s.initState := rfl
@[simp] theorem csSet_cap (l : Level) (s : State) : (csSet l s).cap = s.cap := rfl
@[simp] theorem csSet_result (l : Level) (s : State) : (csSet l s).result = s.result := rfl
@[simp] theorem csSet_legacy (l : Level) (s : State) : (csSet l s).legacy = s.legacy := rfl
@[simp] theorem csSet_crc (l : Level) (s : State) : (csSet l s).crc = s.crc := rfl
@[simp] theorem csSet_frame (l : Level) (s : State) : (csSet l s).frame = s.frame := rfl
@[simp] theorem csSet_r1 (l : Level) (s : State) : (csSet l s).r1 = s.r1 := rfl
@[simp] theorem csSet_tail (l : Level) (s : State) : (csSet l s).tail = s.tail := rfl
@[simp] theorem csSet_buf (l : Level) (s : State) : (csSet l s).buf = s.buf := rfl
@[simp] theorem csSet_cntResp (l : Level) (s : State) : (csSet l s).cntResp = s.cntResp := rfl
@[simp] theorem csSet_cntPoll (l : Level) (s : State) : (csSet l s).cntPoll = s.cntPoll := rfl
@[simp] theorem csSet_cntToken (l : Level) (s : State) : (csSet l s).cntToken = s.cntToken := rfl
@[simp] theorem csSet_cntBusy (l : Level) (s : State) : (csSet l s).cntBusy = s.cntBusy := rfl
@[simp] theorem csSet_seq (l : Level) (s : State) : (csSet l s).seq = s.seq := rfl
@[simp] theorem csSet_history (l : Level) (s : State) : (csSet l s).history = .pin l :: s.history := rfl
@[simp] theorem csSet_answers (l : Level) (s : State) : (csSet l s).answers = s.answers := rfl
@[simp] theorem csSet_draws (l : Level) (s : State) : (csSet l s).draws = s.draws := rfl
@[simp] theorem csSet_requests (l : Level) (s : State) : (csSet l s).requests = s.requests := rfl
@[simp] theorem csSet_params (l : Level) (s : State) : (csSet l s).params = s.params := rfl

/-! ## The exchange -/

@[simp] theorem takeAnswer_csLevel (s : State) : (s.takeAnswer).csLevel = s.csLevel := by unfold State.takeAnswer; split <;> rfl
@[simp] theorem takeAnswer_initState (s : State) : (s.takeAnswer).initState = s.initState := by unfold State.takeAnswer; split <;> rfl
@[simp] theorem takeAnswer_cap (s : State) : (s.takeAnswer).cap = s.cap := by unfold State.takeAnswer; split <;> rfl
@[simp] theorem takeAnswer_result (s : State) : (s.takeAnswer).result = s.result := by unfold State.takeAnswer; split <;> rfl
@[simp] theorem takeAnswer_legacy (s : State) : (s.takeAnswer).legacy = s.legacy := by unfold State.takeAnswer; split <;> rfl
@[simp] theorem takeAnswer_crc (s : State) : (s.takeAnswer).crc = s.crc := by unfold State.takeAnswer; split <;> rfl
@[simp] theorem takeAnswer_frame (s : State) : (s.takeAnswer).frame = s.frame := by unfold State.takeAnswer; split <;> rfl
@[simp] theorem takeAnswer_r1 (s : State) : (s.takeAnswer).r1 = s.r1 := by unfold State.takeAnswer; split <;> rfl
@[simp] theorem takeAnswer_tail (s : State) : (s.takeAnswer).tail = s.tail := by unfold State.takeAnswer; split <;> rfl
@[simp] theorem takeAnswer_buf (s : State) : (s.takeAnswer).buf = s.buf := by unfold State.takeAnswer; split <;> rfl
@[simp] theorem takeAnswer_cntResp (s : State) : (s.takeAnswer).cntResp = s.cntResp := by unfold State.takeAnswer; split <;> rfl
@[simp] theorem takeAnswer_cntPoll (s : State) : (s.takeAnswer).cntPoll = s.cntPoll := by unfold State.takeAnswer; split <;> rfl
@[simp] theorem takeAnswer_cntToken (s : State) : (s.takeAnswer).cntToken = s.cntToken := by unfold State.takeAnswer; split <;> rfl
@[simp] theorem takeAnswer_cntBusy (s : State) : (s.takeAnswer).cntBusy = s.cntBusy := by unfold State.takeAnswer; split <;> rfl
@[simp] theorem takeAnswer_seq (s : State) : (s.takeAnswer).seq = s.seq := by unfold State.takeAnswer; split <;> rfl
@[simp] theorem takeAnswer_history (s : State) : (s.takeAnswer).history = s.history := by unfold State.takeAnswer; split <;> rfl
@[simp] theorem takeAnswer_requests (s : State) : (s.takeAnswer).requests = s.requests := by unfold State.takeAnswer; split <;> rfl
@[simp] theorem takeAnswer_params (s : State) : (s.takeAnswer).params = s.params := by unfold State.takeAnswer; split <;> rfl
@[simp] theorem takeAnswer_answers (s : State) : s.takeAnswer.answers = s.answers.tail := by
  unfold State.takeAnswer; split <;> simp_all
theorem takeAnswer_draws (s : State) : s.takeAnswer.draws = if s.answers = [] then s.draws + 1 else s.draws := by
  unfold State.takeAnswer; split <;> simp_all
theorem nextAnswer_cons {s : State} {a : Answer} {rest : List Answer} (h : s.answers = a :: rest) : s.nextAnswer = a := by
  simp [State.nextAnswer, h]

@[simp] theorem xfer_csLevel (out : Byte) (s : State) : (xfer out s).csLevel = s.csLevel := by simp [xfer]
@[simp] theorem xfer_initState (out : Byte) (s : State) : (xfer out s).initState = s.initState := by simp [xfer]
@[simp] theorem xfer_cap (out : Byte) (s : State) : (xfer out s).cap = s.cap := by simp [xfer]
@[simp] theorem xfer_result (out : Byte) (s : State) : (xfer out s).result = s.result := by simp [xfer]
@[simp] theorem xfer_legacy (out : Byte) (s : State) : (xfer out s).legacy = s.legacy := by simp [xfer]
@[simp] theorem xfer_crc (out : Byte) (s : State) : (xfer out s).crc = s.crc := by simp [xfer]
@[simp] theorem xfer_frame (out : Byte) (s : State) : (xfer out s).frame = s.frame := by simp [xfer]
@[simp] theorem xfer_r1 (out : Byte) (s : State) : (xfer out s).r1 = s.r1 := by simp [xfer]
@[simp] theorem xfer_tail (out : Byte) (s : State) : (xfer out s).tail = s.tail := by simp [xfer]
@[simp] theorem xfer_buf (out : Byte) (s : State) : (xfer out s).buf = s.buf := by simp [xfer]
@[simp] theorem xfer_cntResp (out : Byte) (s : State) : (xfer out s).cntResp = s.cntResp := by simp [xfer]
@[simp] theorem xfer_cntPoll (out : Byte) (s : State) : (xfer out s).cntPoll = s.cntPoll := by simp [xfer]
@[simp] theorem xfer_cntToken (out : Byte) (s : State) : (xfer out s).cntToken = s.cntToken := by simp [xfer]
@[simp] theorem xfer_cntBusy (out : Byte) (s : State) : (xfer out s).cntBusy = s.cntBusy := by simp [xfer]
@[simp] theorem xfer_seq (out : Byte) (s : State) : (xfer out s).seq = s.seq := by simp [xfer]
@[simp] theorem xfer_history (out : Byte) (s : State) : (xfer out s).history = xferEvent s.csLevel out s.nextAnswer :: s.history := by simp [xfer]
@[simp] theorem xfer_answers (out : Byte) (s : State) : (xfer out s).answers = s.answers.tail := by simp [xfer]
@[simp] theorem xfer_requests (out : Byte) (s : State) : (xfer out s).requests = s.requests := by simp [xfer]
@[simp] theorem xfer_params (out : Byte) (s : State) : (xfer out s).params = s.params := by simp [xfer]

/-! ## loadFrame -/

@[simp] theorem loadFrame_csLevel (c : Issuer) (s : State) : (loadFrame c s).csLevel = s.csLevel := rfl
@[simp] theorem loadFrame_initState (c : Issuer) (s : State) : (loadFrame c s).initState = s.initState := rfl
@[simp] theorem loadFrame_cap (c : Issuer) (s : State) : (loadFrame c s).cap = s.cap := rfl
@[simp] theorem loadFrame_result (c : Issuer) (s : State) : (loadFrame c s).result = s.result := rfl
@[simp] theorem loadFrame_legacy (c : Issuer) (s : State) : (loadFrame c s).legacy = s.legacy := rfl
@[simp] theorem loadFrame_crc (c : Issuer) (s : State) : (loadFrame c s).crc = .written (frameCrc c.index c.arg) := rfl
@[simp] theorem loadFrame_frame (c : Issuer) (s : State) : (loadFrame c s).frame = .written (frameOf c.index c.arg) := rfl
@[simp] theorem loadFrame_r1 (c : Issuer) (s : State) : (loadFrame c s).r1 = s.r1 := rfl
@[simp] theorem loadFrame_tail (c : Issuer) (s : State) : (loadFrame c s).tail = s.tail := rfl
@[simp] theorem loadFrame_buf (c : Issuer) (s : State) : (loadFrame c s).buf = s.buf := rfl
@[simp] theorem loadFrame_cntResp (c : Issuer) (s : State) : (loadFrame c s).cntResp = s.cntResp := rfl
@[simp] theorem loadFrame_cntPoll (c : Issuer) (s : State) : (loadFrame c s).cntPoll = s.cntPoll := rfl
@[simp] theorem loadFrame_cntToken (c : Issuer) (s : State) : (loadFrame c s).cntToken = s.cntToken := rfl
@[simp] theorem loadFrame_cntBusy (c : Issuer) (s : State) : (loadFrame c s).cntBusy = s.cntBusy := rfl
@[simp] theorem loadFrame_seq (c : Issuer) (s : State) : (loadFrame c s).seq = s.seq := rfl
@[simp] theorem loadFrame_history (c : Issuer) (s : State) : (loadFrame c s).history = s.history := rfl
@[simp] theorem loadFrame_answers (c : Issuer) (s : State) : (loadFrame c s).answers = s.answers := rfl
@[simp] theorem loadFrame_draws (c : Issuer) (s : State) : (loadFrame c s).draws = s.draws := rfl
@[simp] theorem loadFrame_requests (c : Issuer) (s : State) : (loadFrame c s).requests = s.requests := rfl
@[simp] theorem loadFrame_params (c : Issuer) (s : State) : (loadFrame c s).params = s.params := rfl

/-! ## How an operation ends -/

@[simp] theorem endOperation_csLevel (r : Result) (s : State) : (endOperation r s).csLevel = s.csLevel := rfl
@[simp] theorem endOperation_initState (r : Result) (s : State) : (endOperation r s).initState = s.initState := rfl
@[simp] theorem endOperation_cap (r : Result) (s : State) : (endOperation r s).cap = s.cap := rfl
@[simp] theorem endOperation_result (r : Result) (s : State) : (endOperation r s).result = .written r := rfl
@[simp] theorem endOperation_legacy (r : Result) (s : State) : (endOperation r s).legacy = s.legacy := rfl
@[simp] theorem endOperation_crc (r : Result) (s : State) : (endOperation r s).crc = s.crc := rfl
@[simp] theorem endOperation_frame (r : Result) (s : State) : (endOperation r s).frame = s.frame := rfl
@[simp] theorem endOperation_r1 (r : Result) (s : State) : (endOperation r s).r1 = s.r1 := rfl
@[simp] theorem endOperation_tail (r : Result) (s : State) : (endOperation r s).tail = s.tail := rfl
@[simp] theorem endOperation_buf (r : Result) (s : State) : (endOperation r s).buf = s.buf := rfl
@[simp] theorem endOperation_cntResp (r : Result) (s : State) : (endOperation r s).cntResp = s.cntResp := rfl
@[simp] theorem endOperation_cntPoll (r : Result) (s : State) : (endOperation r s).cntPoll = s.cntPoll := rfl
@[simp] theorem endOperation_cntToken (r : Result) (s : State) : (endOperation r s).cntToken = s.cntToken := rfl
@[simp] theorem endOperation_cntBusy (r : Result) (s : State) : (endOperation r s).cntBusy = s.cntBusy := rfl
@[simp] theorem endOperation_seq (r : Result) (s : State) : (endOperation r s).seq = .idle := rfl
@[simp] theorem endOperation_history (r : Result) (s : State) : (endOperation r s).history = .ended r :: s.history := rfl
@[simp] theorem endOperation_answers (r : Result) (s : State) : (endOperation r s).answers = s.answers := rfl
@[simp] theorem endOperation_draws (r : Result) (s : State) : (endOperation r s).draws = s.draws := rfl
@[simp] theorem endOperation_requests (r : Result) (s : State) : (endOperation r s).requests = s.requests := rfl
@[simp] theorem endOperation_params (r : Result) (s : State) : (endOperation r s).params = s.params := rfl

@[simp] theorem complete_csLevel (bx : Bool) (v : Option Value) (s : State) : (complete bx v s).csLevel = s.csLevel := rfl
@[simp] theorem complete_initState (bx : Bool) (v : Option Value) (s : State) : (complete bx v s).initState = s.initState := rfl
@[simp] theorem complete_cap (bx : Bool) (v : Option Value) (s : State) : (complete bx v s).cap = s.cap := rfl
@[simp] theorem complete_result (bx : Bool) (v : Option Value) (s : State) : (complete bx v s).result = .written (okResult bx v) := rfl
@[simp] theorem complete_legacy (bx : Bool) (v : Option Value) (s : State) : (complete bx v s).legacy = s.legacy := rfl
@[simp] theorem complete_crc (bx : Bool) (v : Option Value) (s : State) : (complete bx v s).crc = s.crc := rfl
@[simp] theorem complete_frame (bx : Bool) (v : Option Value) (s : State) : (complete bx v s).frame = s.frame := rfl
@[simp] theorem complete_r1 (bx : Bool) (v : Option Value) (s : State) : (complete bx v s).r1 = s.r1 := rfl
@[simp] theorem complete_tail (bx : Bool) (v : Option Value) (s : State) : (complete bx v s).tail = s.tail := rfl
@[simp] theorem complete_buf (bx : Bool) (v : Option Value) (s : State) : (complete bx v s).buf = s.buf := rfl
@[simp] theorem complete_cntResp (bx : Bool) (v : Option Value) (s : State) : (complete bx v s).cntResp = s.cntResp := rfl
@[simp] theorem complete_cntPoll (bx : Bool) (v : Option Value) (s : State) : (complete bx v s).cntPoll = s.cntPoll := rfl
@[simp] theorem complete_cntToken (bx : Bool) (v : Option Value) (s : State) : (complete bx v s).cntToken = s.cntToken := rfl
@[simp] theorem complete_cntBusy (bx : Bool) (v : Option Value) (s : State) : (complete bx v s).cntBusy = s.cntBusy := rfl
@[simp] theorem complete_seq (bx : Bool) (v : Option Value) (s : State) : (complete bx v s).seq = .idle := rfl
@[simp] theorem complete_history (bx : Bool) (v : Option Value) (s : State) : (complete bx v s).history = .ended (okResult bx v) :: s.history := rfl
@[simp] theorem complete_answers (bx : Bool) (v : Option Value) (s : State) : (complete bx v s).answers = s.answers := rfl
@[simp] theorem complete_draws (bx : Bool) (v : Option Value) (s : State) : (complete bx v s).draws = s.draws := rfl
@[simp] theorem complete_requests (bx : Bool) (v : Option Value) (s : State) : (complete bx v s).requests = s.requests := rfl
@[simp] theorem complete_params (bx : Bool) (v : Option Value) (s : State) : (complete bx v s).params = s.params := rfl

@[simp] theorem errorExit_result (op : Operation) (s : State) : (errorExit op s).result = s.result := by cases op <;> rfl
@[simp] theorem errorExit_legacy (op : Operation) (s : State) : (errorExit op s).legacy = s.legacy := by cases op <;> rfl
@[simp] theorem errorExit_crc (op : Operation) (s : State) : (errorExit op s).crc = s.crc := by cases op <;> rfl
@[simp] theorem errorExit_frame (op : Operation) (s : State) : (errorExit op s).frame = s.frame := by cases op <;> rfl
@[simp] theorem errorExit_r1 (op : Operation) (s : State) : (errorExit op s).r1 = s.r1 := by cases op <;> rfl
@[simp] theorem errorExit_tail (op : Operation) (s : State) : (errorExit op s).tail = s.tail := by cases op <;> rfl
@[simp] theorem errorExit_buf (op : Operation) (s : State) : (errorExit op s).buf = s.buf := by cases op <;> rfl
@[simp] theorem errorExit_cntResp (op : Operation) (s : State) : (errorExit op s).cntResp = s.cntResp := by cases op <;> rfl
@[simp] theorem errorExit_cntPoll (op : Operation) (s : State) : (errorExit op s).cntPoll = s.cntPoll := by cases op <;> rfl
@[simp] theorem errorExit_cntToken (op : Operation) (s : State) : (errorExit op s).cntToken = s.cntToken := by cases op <;> rfl
@[simp] theorem errorExit_cntBusy (op : Operation) (s : State) : (errorExit op s).cntBusy = s.cntBusy := by cases op <;> rfl
@[simp] theorem errorExit_seq (op : Operation) (s : State) : (errorExit op s).seq = s.seq := by cases op <;> rfl
@[simp] theorem errorExit_answers (op : Operation) (s : State) : (errorExit op s).answers = s.answers := by cases op <;> rfl
@[simp] theorem errorExit_draws (op : Operation) (s : State) : (errorExit op s).draws = s.draws := by cases op <;> rfl
@[simp] theorem errorExit_requests (op : Operation) (s : State) : (errorExit op s).requests = s.requests := by cases op <;> rfl
@[simp] theorem errorExit_params (op : Operation) (s : State) : (errorExit op s).params = s.params := by cases op <;> rfl

@[simp] theorem raise_csLevel (op : Operation) (k : Status) (t : StepTag) (s : State) : (raise op k t s).csLevel = (errorExit op s).csLevel := by simp [raise]
@[simp] theorem raise_initState (op : Operation) (k : Status) (t : StepTag) (s : State) : (raise op k t s).initState = (errorExit op s).initState := by simp [raise]
@[simp] theorem raise_cap (op : Operation) (k : Status) (t : StepTag) (s : State) : (raise op k t s).cap = (errorExit op s).cap := by simp [raise]
@[simp] theorem raise_result (op : Operation) (k : Status) (t : StepTag) (s : State) : (raise op k t s).result = .written (errorResult k t) := by simp [raise]
@[simp] theorem raise_legacy (op : Operation) (k : Status) (t : StepTag) (s : State) : (raise op k t s).legacy = s.legacy := by simp [raise]
@[simp] theorem raise_crc (op : Operation) (k : Status) (t : StepTag) (s : State) : (raise op k t s).crc = s.crc := by simp [raise]
@[simp] theorem raise_frame (op : Operation) (k : Status) (t : StepTag) (s : State) : (raise op k t s).frame = s.frame := by simp [raise]
@[simp] theorem raise_r1 (op : Operation) (k : Status) (t : StepTag) (s : State) : (raise op k t s).r1 = s.r1 := by simp [raise]
@[simp] theorem raise_tail (op : Operation) (k : Status) (t : StepTag) (s : State) : (raise op k t s).tail = s.tail := by simp [raise]
@[simp] theorem raise_buf (op : Operation) (k : Status) (t : StepTag) (s : State) : (raise op k t s).buf = s.buf := by simp [raise]
@[simp] theorem raise_cntResp (op : Operation) (k : Status) (t : StepTag) (s : State) : (raise op k t s).cntResp = s.cntResp := by simp [raise]
@[simp] theorem raise_cntPoll (op : Operation) (k : Status) (t : StepTag) (s : State) : (raise op k t s).cntPoll = s.cntPoll := by simp [raise]
@[simp] theorem raise_cntToken (op : Operation) (k : Status) (t : StepTag) (s : State) : (raise op k t s).cntToken = s.cntToken := by simp [raise]
@[simp] theorem raise_cntBusy (op : Operation) (k : Status) (t : StepTag) (s : State) : (raise op k t s).cntBusy = s.cntBusy := by simp [raise]
@[simp] theorem raise_seq (op : Operation) (k : Status) (t : StepTag) (s : State) : (raise op k t s).seq = .idle := by simp [raise]
@[simp] theorem raise_history (op : Operation) (k : Status) (t : StepTag) (s : State) : (raise op k t s).history = .ended (errorResult k t) :: (errorExit op s).history := by simp [raise]
@[simp] theorem raise_answers (op : Operation) (k : Status) (t : StepTag) (s : State) : (raise op k t s).answers = s.answers := by simp [raise]
@[simp] theorem raise_draws (op : Operation) (k : Status) (t : StepTag) (s : State) : (raise op k t s).draws = s.draws := by simp [raise]
@[simp] theorem raise_requests (op : Operation) (k : Status) (t : StepTag) (s : State) : (raise op k t s).requests = s.requests := by simp [raise]
@[simp] theorem raise_params (op : Operation) (k : Status) (t : StepTag) (s : State) : (raise op k t s).params = s.params := by simp [raise]

@[simp] theorem errorExit_sendCommand (s : State) : errorExit .sendCommand s = s := rfl
@[simp] theorem errorExit_init (s : State) :
    errorExit .init s = csSet .high { s with initState := .failed, cap := .undefined } := rfl
@[simp] theorem errorExit_readBlock (s : State) : errorExit .readBlock s = csSet .high s := rfl
@[simp] theorem errorExit_writeBlock (s : State) : errorExit .writeBlock s = csSet .high s := rfl

/-! ## Registers that reset leaves unwritten -/

@[simp] theorem Reg.value_unwritten {α : Type} (v : α) : (Reg.unwritten v).value = v := rfl
@[simp] theorem Reg.value_written {α : Type} (v : α) : (Reg.written v).value = v := rfl
@[simp] theorem Reg.isWritten_unwritten {α : Type} (v : α) : (Reg.unwritten v).isWritten = false := rfl
@[simp] theorem Reg.isWritten_written {α : Type} (v : α) : (Reg.written v).isWritten = true := rfl

theorem Reg.isWritten_iff {α : Type} {r : Reg α} : r.isWritten = true ↔ ∃ v, r = .written v := by
  cases r <;> simp

/-! ## TAIL and FRAME -/

@[simp] theorem tail_get_set_same (t : Tail) (k : Fin 4) (b : Byte) : (t.set k b).get k = .written b := by
  fin_cases k <;> rfl

theorem tail_get_set_other (t : Tail) {j k : Fin 4} (b : Byte) (h : j ≠ k) : (t.set k b).get j = t.get j := by
  fin_cases j <;> fin_cases k <;> first | rfl | exact absurd rfl h

theorem frameOf_byte (index : CmdIndex) (arg : Word32) (k : Fin 6) :
    some ((frameOf index arg).byte k) = (frameBytes index arg)[k.val]? := by
  fin_cases k <;> rfl

end Sys2Proof.Machine
end

