-- ==== Sys2Proof/Laws/Ops.lean ====
section
/-!
SUPPORT. What each shared operation of Machine/Ops.lean can do, said once.
-/

namespace Sys2Proof.Machine

@[simp] theorem readRegister_written {α : Type} (r : Register) (a : α) : readRegister r (.written a) = .ok a := rfl
@[simp] theorem readRegister_unwritten {α : Type} (r : Register) (a : α) :
    readRegister r (.unwritten a) = .error (.noValue r) := rfl
@[simp] theorem readPresent_some {α : Type} (r : Register) (a : α) : readPresent r (some a) = .ok a := rfl
@[simp] theorem readPresent_none {α : Type} (r : Register) : readPresent r (none : Option α) = .error (.noValue r) := rfl

@[simp] theorem withRead_ok {α : Type} (a : α) (use : α → State → State) (s : State) : withRead (.ok a) use s = use a s := rfl

@[simp] theorem withRead_error {α : Type} (f : Fault) (use : α → State → State) (s : State) :
    withRead (.error f) use s = s.stop f := rfl

/-- What holds after a read goes on: it holds after the use of the value, and where there is no value after the stop. -/
theorem withRead_spec {α : Type} {P : State → Prop} {v : Except Fault α} {use : α → State → State} {s : State}
    (hok : ∀ a, v = .ok a → P (use a s)) (herr : ∀ f, v = .error f → P (s.stop f)) : P (withRead v use s) := by
  cases v with
  | ok a => exact hok a rfl
  | error f => exact herr f rfl

theorem exchange_byte {op : Operation} {t : StepTag} {out b : Byte} {use : Byte → State → State} {s : State}
    (h : s.nextAnswer = .byte b) : exchange op t out use s = use b (xfer out s) := by
  simp [exchange, h]

theorem exchange_fault {op : Operation} {t : StepTag} {out : Byte} {use : Byte → State → State} {s : State}
    (h : s.nextAnswer = .fault) : exchange op t out use s = raise op .transportFailure t (xfer out s) := by
  simp [exchange, h]

/-- An exchange ends in one of two ways: the use of the byte, or TransportFailure (R12). -/
theorem exchange_spec {P : State → Prop} {op : Operation} {t : StepTag} {out : Byte} {use : Byte → State → State} {s : State}
    (hb : ∀ b, s.nextAnswer = .byte b → P (use b (xfer out s)))
    (hf : s.nextAnswer = .fault → P (raise op .transportFailure t (xfer out s))) : P (exchange op t out use s) := by
  cases h : s.nextAnswer with
  | byte b => rw [exchange_byte h]; exact hb b h
  | fault => rw [exchange_fault h]; exact hf h

/-- The event an exchange appends is an exchange at the level of the pin. -/
theorem xferEvent_isExchange (cs : Level) (out : Byte) (a : Answer) : (xferEvent cs out a).isExchange = true := by
  cases a <;> rfl

@[simp] theorem pinLevel_xferEvent (cs : Level) (out : Byte) (a : Answer) (h : List Event) :
    pinLevel (xferEvent cs out a :: h) = pinLevel h := by
  cases a <;> rfl

@[simp] theorem pinLevel_ended (r : Result) (h : List Event) : pinLevel (.ended r :: h) = pinLevel h := rfl
@[simp] theorem pinLevel_begun (i : Instr) (h : List Event) : pinLevel (.begun i :: h) = pinLevel h := rfl
@[simp] theorem pinLevel_pin (l : Level) (h : List Event) : pinLevel (.pin l :: h) = l := rfl

@[simp] theorem begunCount_xferEvent (cs : Level) (out : Byte) (a : Answer) (h : List Event) :
    begunCount (xferEvent cs out a :: h) = begunCount h := by
  cases a <;> simp [begunCount, xferEvent]

@[simp] theorem begunCount_pin (l : Level) (h : List Event) : begunCount (.pin l :: h) = begunCount h := by simp [begunCount]
@[simp] theorem begunCount_ended (r : Result) (h : List Event) : begunCount (.ended r :: h) = begunCount h := by
  simp [begunCount]
@[simp] theorem begunCount_begun (i : Instr) (h : List Event) : begunCount (.begun i :: h) = begunCount h + 1 := by
  simp [begunCount]
@[simp] theorem endedCount_xferEvent (cs : Level) (out : Byte) (a : Answer) (h : List Event) :
    endedCount (xferEvent cs out a :: h) = endedCount h := by
  cases a <;> simp [endedCount, xferEvent]
@[simp] theorem endedCount_pin (l : Level) (h : List Event) : endedCount (.pin l :: h) = endedCount h := by simp [endedCount]
@[simp] theorem endedCount_ended (r : Result) (h : List Event) : endedCount (.ended r :: h) = endedCount h + 1 := by
  simp [endedCount]
@[simp] theorem endedCount_begun (i : Instr) (h : List Event) : endedCount (.begun i :: h) = endedCount h := by
  simp [endedCount]

theorem errorResult_wf {k : Status} {t : StepTag} (h1 : k ≠ .ok) (h2 : k ≠ .badToken) : (errorResult k t).wf := by
  simp [errorResult, Result.wf, h1, h2]

theorem okResult_wf {bx : Bool} {v : Option Value} (h : bx = true → v = none) : (okResult bx v).wf := by
  simp [okResult, Result.wf]; exact h

/-- FRAME as the framer loads it is a command frame. -/
theorem frameOf_wf (index : CmdIndex) (arg : Word32) : (frameOf index arg).wf := by
  refine ⟨?_, rfl⟩
  simp only [frameOf, commandByte]
  apply BitVec.eq_of_getLsbD_eq
  intro i hi
  rw [BitVec.getLsbD_extractLsb', BitVec.getLsbD_append]
  have h6 : ¬ 6 + i < 6 := by omega
  simp [hi, h6]

end Sys2Proof.Machine
end

