-- ==== Sys2Proof/Laws/Memory.lean ====
section
/-!
SUPPORT. The laws of BUF: a read after a write, every other byte alone, and that each memory operation keeps the canonical form.
-/

namespace Sys2Proof.Machine

theorem wf_iff (m : Memory) :
    m.wf = true ↔ m.Pairwise (fun c d => c.1 < d.1) ∧ ∀ c ∈ m, c.1 < blockSize := by
  simp [Memory.wf]

theorem wf_nil : Memory.wf [] = true := rfl

theorem wf_tail {c : Host.Cell} {m : Memory} (h : Memory.wf (c :: m) = true) : m.wf = true := by
  rw [wf_iff] at h ⊢
  exact ⟨h.1.of_cons, fun d hd => h.2 d (List.mem_cons_of_mem _ hd)⟩

/-- A read after a write to the same offset gives the byte written. -/
theorem byteAt_put_same (m : Memory) (k : Nat) (b : Byte) : (m.put k b).byteAt k = some b := by
  induction m with
  | nil => simp [Memory.put, Memory.byteAt]
  | cons c rest ih =>
    obtain ⟨j, d⟩ := c
    simp only [Memory.put]
    split
    · next h => simp [Memory.byteAt, ih, Nat.ne_of_lt h]
    · split <;> simp [Memory.byteAt]

/-- A write leaves every other offset alone. -/
theorem byteAt_put_other (m : Memory) {j k : Nat} (b : Byte) (h : j ≠ k) : (m.put k b).byteAt j = m.byteAt j := by
  induction m with
  | nil => simp [Memory.put, Memory.byteAt, Ne.symm h]
  | cons c rest ih =>
    obtain ⟨i, d⟩ := c
    simp only [Memory.put]
    split
    · simp [Memory.byteAt, ih]
    · split
      · next hik => subst hik; simp [Memory.byteAt, Ne.symm h]
      · simp [Memory.byteAt, Ne.symm h]

theorem mem_put {m : Memory} {k : Nat} {b : Byte} {c : Host.Cell} (h : c ∈ m.put k b) : c = (k, b) ∨ c ∈ m := by
  induction m with
  | nil => simpa [Memory.put] using h
  | cons d rest ih =>
    obtain ⟨i, e⟩ := d
    simp only [Memory.put] at h
    split at h
    · rcases List.mem_cons.1 h with rfl | h
      · exact .inr (List.mem_cons_self ..)
      · exact (ih h).imp id (List.mem_cons_of_mem _)
    · split at h
      · exact (List.mem_cons.1 h).imp id (List.mem_cons_of_mem _)
      · exact List.mem_cons.1 h

/-- A write inside BUF keeps the canonical form. -/
theorem put_wf {m : Memory} {k : Nat} {b : Byte} (hm : m.wf = true) (hk : k < blockSize) : (m.put k b).wf = true := by
  rw [wf_iff] at hm ⊢
  refine ⟨?_, fun c hc => ?_⟩
  · induction m with
    | nil => simp [Memory.put]
    | cons c rest ih =>
      obtain ⟨j, d⟩ := c
      have hj := List.pairwise_cons.1 hm.1
      have ih := ih ⟨hj.2, fun c hc => hm.2 c (List.mem_cons_of_mem _ hc)⟩
      simp only [Memory.put]
      split
      · next h =>
        refine List.pairwise_cons.2 ⟨fun c hc => ?_, ih⟩
        rcases mem_put hc with rfl | hc
        · exact h
        · exact hj.1 c hc
      · split
        · next h => subst h; exact List.pairwise_cons.2 ⟨hj.1, hj.2⟩
        · next h1 h2 =>
          refine List.pairwise_cons.2 ⟨fun c hc => ?_, hm.1⟩
          rcases List.mem_cons.1 hc with rfl | hc
          · simp only; omega
          · have := hj.1 c hc
            simp only at this ⊢; omega
  · rcases mem_put hc with rfl | hc
    · exact hk
    · exact hm.2 c hc

/-- Every memory write keeps the canonical form. -/
theorem memWrite_wf {m m' : Memory} {k : Nat} {b : Byte} (hm : m.wf = true) (h : memWrite m k b = .ok m') : m'.wf = true := by
  unfold memWrite at h
  split at h
  · next hk => cases h; exact put_wf hm hk
  · cases h

theorem memWrite_inside (m : Memory) {k : Nat} (b : Byte) (h : k < blockSize) : memWrite m k b = .ok (m.put k b) := by
  simp [memWrite, h]

theorem mem_cellsFrom {offset : Nat} {bs : List Byte} {c : Host.Cell} (h : c ∈ cellsFrom offset bs) :
    offset ≤ c.1 ∧ c.1 < offset + bs.length := by
  induction bs generalizing offset with
  | nil => simp [cellsFrom] at h
  | cons b bs ih =>
    rcases List.mem_cons.1 h with rfl | h
    · simp
    · have := ih h
      simp only [List.length_cons]; omega

theorem cellsFrom_pairwise (offset : Nat) (bs : List Byte) :
    (cellsFrom offset bs).Pairwise (fun c d => c.1 < d.1) := by
  induction bs generalizing offset with
  | nil => exact List.Pairwise.nil
  | cons b bs ih =>
    refine List.pairwise_cons.2 ⟨fun c hc => ?_, ih (offset + 1)⟩
    have := (mem_cellsFrom hc).1
    simp only; omega

/-- The 512 data bytes of a WRITE_BLOCK as BUF: in canonical form. -/
theorem cellsFrom_wf {bs : List Byte} (h : bs.length = blockSize) : (cellsFrom 0 bs).wf = true := by
  rw [wf_iff]
  exact ⟨cellsFrom_pairwise 0 bs, fun c hc => by have := (mem_cellsFrom hc).2; omega⟩

theorem byteAt_cellsFrom (offset k : Nat) (bs : List Byte) : (cellsFrom offset bs).byteAt (offset + k) = bs[k]? := by
  induction bs generalizing offset k with
  | nil => simp [cellsFrom, Memory.byteAt]
  | cons b bs ih =>
    cases k with
    | zero => simp [cellsFrom, Memory.byteAt]
    | succ k =>
      have : offset ≠ offset + (k + 1) := by omega
      simp only [cellsFrom, Memory.byteAt, this, if_false]
      rw [show offset + (k + 1) = offset + 1 + k by omega, ih]
      simp

theorem filled_cellsFrom {bs : List Byte} (h : bs.length = blockSize) : filled (cellsFrom 0 bs) blockSize := by
  intro k hk
  have := byteAt_cellsFrom 0 k bs
  rw [Nat.zero_add] at this
  rw [this, List.getElem?_eq_getElem (by omega)]
  rfl

/-- Reading back the bytes BUF was filled with gives them in order. -/
theorem memReadRange_cellsFrom (offset : Nat) (bs : List Byte) :
    memReadRange (cellsFrom offset bs) offset bs.length = .ok bs := by
  induction bs generalizing offset with
  | nil => rfl
  | cons b bs ih =>
    simp only [List.length_cons, memReadRange, cellsFrom]
    rw [List.dropWhile_cons_of_neg (by simp)]
    simp [ih]

/-- One more byte written, one more has a value. -/
theorem filled_put {m : Memory} {k b} (h : filled m k) : filled (m.put k b) (k+1) := by
  intro j hj
  by_cases e : j = k
  · subst e; simp [byteAt_put_same]
  · rw [byteAt_put_other _ _ e]; exact h j (by omega)

theorem memRead_filled {m : Memory} {n k} (h : filled m n) (hk : k < n) (hn : n ≤ 512) : ∃ b, memRead m k = .ok b := by
  have := h k hk
  obtain ⟨b, hb⟩ := Option.isSome_iff_exists.1 this
  exact ⟨b, by simp [memRead, blockSize, hb]; omega⟩

theorem byteAt_dropWhile {m : Memory} {o k : Nat} (h : o ≤ k) : Memory.byteAt (List.dropWhile (fun c => decide (c.1 < o)) m) k = m.byteAt k := by
  induction m with
  | nil => rfl
  | cons c rest ih =>
    obtain ⟨j, d⟩ := c
    by_cases hj : j < o
    · rw [List.dropWhile_cons_of_pos (by simpa using hj), ih]
      have : j ≠ k := by omega
      simp [Memory.byteAt, this]
    · rw [List.dropWhile_cons_of_neg (by simpa using hj)]

/-- A walk over offsets that all have values reads them all. -/
theorem memReadRange_filled (n : Nat) : ∀ {m : Memory} {o}, m.Pairwise (fun c d => c.1 < d.1) → (∀ k, o ≤ k → k < o + n → (m.byteAt k).isSome = true) → ∃ bs, memReadRange m o n = .ok bs := by
  induction n with
  | zero => intro m o _ _; exact ⟨[], rfl⟩
  | succ n ih =>
    intro m o hm hf
    have hl := hf o (Nat.le_refl _) (by omega)
    rw [← byteAt_dropWhile (Nat.le_refl o)] at hl
    have hm' := hm.sublist (List.dropWhile_sublist (fun c => decide (c.1 < o)))
    have hf' : ∀ k, o ≤ k → k < o + (n+1) → (Memory.byteAt (m.dropWhile (fun c => decide (c.1 < o))) k).isSome = true := fun k h1 h2 => by
      rw [byteAt_dropWhile h1]; exact hf k h1 h2
    have hd : ∀ c r, m.dropWhile (fun c => decide (c.1 < o)) = c :: r → ¬ c.1 < o := by
      intro c r h
      have := List.head?_dropWhile_not (fun c : Host.Cell => decide (c.1 < o)) m
      rw [h] at this; simpa using this
    simp only [memReadRange]
    generalize m.dropWhile (fun c => decide (c.1 < o)) = d at *
    match d with
    | [] => simp [Memory.byteAt] at hl
    | (k, b) :: rest =>
      have hk := hd _ _ rfl
      have hp := List.pairwise_cons.1 hm'
      have hko : k = o := by
        by_contra hne
        simp only [Memory.byteAt, hne, if_false] at hl
        obtain ⟨x, hx⟩ := Option.isSome_iff_exists.1 hl
        have : ∃ c ∈ rest, c.1 = o := by
          clear ih hp hf' hm' hd hl
          induction rest with
          | nil => simp [Memory.byteAt] at hx
          | cons c r ih2 =>
            obtain ⟨j, e⟩ := c
            simp only [Memory.byteAt] at hx
            split at hx
            · next h => exact ⟨_, List.mem_cons_self .., h⟩
            · obtain ⟨c, h1, h2⟩ := ih2 hx; exact ⟨c, List.mem_cons_of_mem _ h1, h2⟩
        obtain ⟨c, h1, h2⟩ := this
        have := hp.1 c h1
        simp only at this hk; omega
      subst hko
      obtain ⟨bs, hbs⟩ := ih (m := rest) (o := k+1) hp.2 (fun j h1 h2 => by
        have := hf' j (by omega) (by omega)
        have hne : k ≠ j := by omega
        simpa [Memory.byteAt, hne] using this)
      exact ⟨b :: bs, by simp [hbs]⟩

end Sys2Proof.Machine
end

