-- ==== Sys2Proof/Laws/Sequencer.lean ====
section
/-!
SUPPORT. The runs of the sequencer, and its step at each label.
-/

namespace Sys2Proof.Machine

@[simp] theorem runFor_zero (s : State) : runFor 0 s = s := rfl

theorem runFor_running {s : State} (n : Nat) (h : s.seq.running = true) : runFor (n + 1) s = runFor n (tick s) := by
  simp [runFor, h]

theorem runFor_stopped {s : State} (n : Nat) (h : s.seq.running = false) : runFor n s = s := by
  cases n <;> simp [runFor, h]

/-- A run of n + k steps is a run of n steps and then one of k. -/
theorem runFor_add (n k : Nat) (s : State) : runFor (n + k) s = runFor k (runFor n s) := by
  induction n generalizing s with
  | zero => simp
  | succ n ih =>
    rw [Nat.add_right_comm]
    by_cases h : s.seq.running = true
    · rw [runFor_running _ h, runFor_running _ h, ih]
    · have h : s.seq.running = false := by simpa using h
      simp only [runFor_stopped _ h]

/-- What every step of the sequencer keeps, every run keeps. -/
theorem runFor_keeps {P : State → Prop} (h : ∀ s, P s → P (tick s)) (n : Nat) {s : State} (hs : P s) : P (runFor n s) := by
  induction n generalizing s with
  | zero => exact hs
  | succ n ih =>
    by_cases hr : s.seq.running = true
    · rw [runFor_running _ hr]; exact ih (h s hs)
    · rw [runFor_stopped _ (by simpa using hr)]; exact hs

theorem runCommandFor_keeps {P : State → Prop} (h : ∀ s, P s → P (tick s)) (c : Issuer) (n : Nat) {s : State} (hs : P s) :
    P (runCommandFor c n s) := by
  induction n generalizing s with
  | zero => exact hs
  | succ n ih =>
    simp only [runCommandFor]
    split
    · exact ih (h s hs)
    · exact hs

theorem tick_idle {s : State} (h : s.seq = .idle) : tick s = s := by simp [tick, h]
theorem tick_stuck {s : State} {f : Fault} (h : s.seq = .stuck f) : tick s = s := by simp [tick, h]
theorem tick_cRun {s : State} {d : List Byte} (h : s.seq = .cRun d) : tick s = crcRun d s := by simp [tick, h]
theorem tick_tx {s : State} {c : Issuer} {k : Fin 6} (h : s.seq = .cmd c (.tx k)) : tick s = framerTx c k s := by simp [tick, h]
theorem tick_rx {s : State} {c : Issuer} (h : s.seq = .cmd c .rx) : tick s = framerRx c s := by simp [tick, h]

end Sys2Proof.Machine
end

