-- ==== Sys2Proof/Laws/Invariant.lean ====
section
/-!
SUPPORT. Every step of the sequencer keeps the invariant of Safety.lean: one lemma for each shared operation, and one for `tick`.
-/

namespace Sys2Proof.Machine

theorem params_wf_iff {p : Params} (h : p.wf = true) : 1 ≤ p.respPollLimit ∧ 1 ≤ p.ocrPollLimit ∧ 1 ≤ p.tokenPollLimit ∧ 1 ≤ p.busyPollLimit ∧ 10 ≤ p.powerupDummyBytes := by
  simp [Params.wf] at h; omega

/-- The part of the invariant that does not speak of SEQ. -/
structure RegistersOk (s : State) : Prop where
  params   : s.params.wf = true
  buf      : s.buf.wf = true
  r1       : s.r1 ≠ .written 0xFF#8
  frame    : ∀ f, s.frame = .written f → f.wf
  cntResp  : bounded s.cntResp s.params.respPollLimit
  cntPoll  : bounded s.cntPoll s.params.ocrPollLimit
  cntToken : bounded s.cntToken s.params.tokenPollLimit
  cntBusy  : bounded s.cntBusy s.params.busyPollLimit
  result   : ∀ r, s.result = .written r → r.wf
  ready    : s.initState = .ready → s.cap ≠ .undefined
  pin      : s.csLevel = pinLevel s.history

/-- n of the operations begun have not ended. -/
def Balanced (s : State) (n : Nat) : Prop := begunCount s.history = endedCount s.history + n

theorem blockInv_of (s : State) (n) (b : RegistersOk s) (o : Balanced s n) (hn : n = if s.seq.running then 1 else 0) (p : labelOk s.seq s) : BlockInv s := by
  subst hn
  exact ⟨b.params, b.buf, b.r1, b.frame, b.cntResp, b.cntPoll, b.cntToken, b.cntBusy, b.result, b.ready, b.pin, o, p⟩

theorem BlockInv.registersOk {s} (h : BlockInv s) : RegistersOk s := ⟨h.params, h.buf, h.r1, h.frame, h.cntResp, h.cntPoll, h.cntToken, h.cntBusy, h.result, h.ready, h.pin⟩

theorem bounded_written {n limit : Nat} (h : n ≤ limit) : bounded (.written n) limit := by
  intro j hj; cases hj; exact h

theorem RegistersOk.xfer {s} (out) (h : RegistersOk s) : RegistersOk (xfer out s) := by
  obtain ⟨a,b,c,d,e,f,g,i,j,k,l⟩ := h
  constructor <;> simpa
theorem Balanced.xfer {s n} (out) (h : Balanced s n) : Balanced (xfer out s) n := by simpa [Balanced] using h
theorem RegistersOk.csSet {s} (l) (h : RegistersOk s) : RegistersOk (csSet l s) := by
  obtain ⟨a,b,c,d,e,f,g,i,j,k,l⟩ := h
  constructor <;> simp <;> assumption
theorem RegistersOk.goto {s} (l) (h : RegistersOk s) : RegistersOk (s.goto l) := by
  obtain ⟨a,b,c,d,e,f,g,i,j,k,l⟩ := h
  constructor <;> simp <;> assumption
theorem RegistersOk.endOperation {s r} (hr : r.wf) (h : RegistersOk s) : RegistersOk (endOperation r s) := by
  obtain ⟨a,b,c,d,e,f,g,i,j,k,l⟩ := h
  constructor <;> simp <;> assumption
theorem RegistersOk.complete {s bx v} (hr : bx = true → v = none) (h : RegistersOk s) : RegistersOk (complete bx v s) := h.endOperation (okResult_wf hr)

theorem raise_keeps {s op k t} (h : RegistersOk s) (o : Balanced s 1) (h1 : k ≠ .ok) (h2 : k ≠ .badToken) (hop : op ≠ .init → capSettled s)
   (hc : op = .sendCommand ∨ op = .crc7 → s.csLevel = .high) : BlockInv (raise op k t s) := by
  apply blockInv_of _ 0
  · unfold raise; apply RegistersOk.endOperation (errorResult_wf h1 h2)
    cases op <;> simp only [errorExit]
    · exact h
    · exact h
    · obtain ⟨a,b,c,d,e,f,g,i,j,k,l⟩ := h
      constructor <;> simp <;> assumption
    · exact h.csSet _
    · exact h.csSet _
  · cases op <;> simpa [Balanced, errorExit, raise, complete] using o
  · simp [Seq.running]
  · cases op <;> simp_all [labelOk, capSettled, errorExit]

theorem complete_keeps {s bx v} (h : RegistersOk s) (o : Balanced s 1) (hr : bx = true → v = none) (hc : s.csLevel = .high) (hs : capSettled s) : BlockInv (complete bx v s) := by
  apply blockInv_of _ 0 (h.complete hr)
  · simpa [Balanced] using o
  · simp [Seq.running]
  · simpa [labelOk, capSettled, hc] using hs

theorem capSettled_of_transfer {s} (h : RegistersOk s) (hs : inTransfer s) : capSettled s := by
  have := h.ready hs
  simp_all [capSettled, inTransfer]

theorem BlockInv.balanced {s} (h : BlockInv s) (hr : s.seq.running = true) : Balanced s 1 := by
  have := h.balance; simpa [Balanced, hr] using this

/-- What the issuer of a command does with its response keeps the invariant. -/
theorem afterResponse_keeps {s c r} (h : RegistersOk s) (o : Balanced s 1) (p : issuerOk c s) : BlockInv (afterResponse c r s) := by
  have hp := params_wf_iff h.params
  cases c <;> simp only [afterResponse]
  · exact complete_keeps h o (by simp) p.1 p.2
  · unfold initAfterCmd0; split
    · apply blockInv_of _ 1 (h.goto _) (by simpa [Balanced] using o) (by simp [Seq.running])
      simpa [labelOk, issuerOk, framerOk, inInit] using p
    · exact raise_keeps h o (by simp) (by simp) (by simp) (by simp)
  · unfold initAfterCmd8; split
    · unfold initEnterPoll
      apply blockInv_of _ 1
      · obtain ⟨a,b,c,d,e,f,g,i,j,k,l⟩ := h
        constructor <;> simp <;> first | assumption | exact bounded_written hp.2.1
      · simpa [Balanced] using o
      · simp [Seq.running]
      · simp [labelOk, issuerOk, framerOk, inInit, counting] at p ⊢
        simp [p, hp.2.1]
    · apply blockInv_of _ 1 (h.goto _) (by simpa [Balanced] using o) (by simp [Seq.running])
      simpa [labelOk, issuerOk, framerOk, inInit, tailFilled] using p
  · unfold initAfterCmd55
    apply blockInv_of _ 1 (h.goto _) (by simpa [Balanced] using o) (by simp [Seq.running])
    simpa [labelOk, issuerOk, framerOk, inInit, tailFilled] using p
  · unfold initAfterAcmd41; split
    · apply blockInv_of _ 1 (h.goto _) (by simpa [Balanced] using o) (by simp [Seq.running])
      simp [labelOk, issuerOk, framerOk, inInit] at p ⊢
      simp [p]
    · obtain ⟨p1, p2, n, p3, p4, p5⟩ := p
      simp only [State.readCntPoll, p3, readRegister_written, withRead_ok]
      split
      · next hn =>
        apply blockInv_of _ 1
        · obtain ⟨a,b,c,d,e,f,g,i,j,k,l⟩ := h
          constructor <;> simp <;> first | assumption | exact bounded_written hn
        · simpa [Balanced] using o
        · simp [Seq.running]
        · simp [labelOk, issuerOk, framerOk, inInit, counting] at p2 ⊢
          simp [p1, p2]; omega
      · exact raise_keeps h o (by simp) (by simp) (by simp) (by simp)
  · unfold initAfterCmd58; split
    · apply blockInv_of _ 1 (h.goto _) (by simpa [Balanced] using o) (by simp [Seq.running])
      simpa [labelOk, issuerOk, framerOk, inInit, tailFilled] using p
    · exact raise_keeps h o (by simp) (by simp) (by simp) (by simp)
  · unfold initAfterCmd16; split
    · apply blockInv_of _ 1 (h.goto _) (by simpa [Balanced] using o) (by simp [Seq.running])
      simp [labelOk, issuerOk, inInit] at p ⊢
      simp [p]
    · exact raise_keeps h o (by simp) (by simp) (by simp) (by simp)
  · unfold readAfterCmd17; split
    · apply blockInv_of _ 1
      · obtain ⟨a,b,c,d,e,f,g,i,j,k,l⟩ := h
        constructor <;> simp <;> first | assumption | exact bounded_written hp.2.2.1
      · simpa [Balanced] using o
      · simp [Seq.running]
      · simp [labelOk, issuerOk, inTransfer, counting] at p ⊢
        simp [p, hp.2.2.1]
    · exact raise_keeps h o (by simp) (by simp) (fun _ => capSettled_of_transfer h p.2.1) (by simp)
  · unfold writeAfterCmd24; split
    · split_ifs <;> apply blockInv_of _ 1 (h.goto _) (by simpa [Balanced] using o) (by simp [Seq.running]) <;> simp_all [labelOk, issuerOk, inTransfer]
      omega
    · exact raise_keeps h o (by simp) (by simp) (fun _ => capSettled_of_transfer h p.2.1) (by simp)

theorem issuer_settled {s c} (h : RegistersOk s) (p : issuerOk c s) : c.operation ≠ .init → capSettled s := by
  cases c <;> simp [Issuer.operation] <;> first | exact p.2 | exact capSettled_of_transfer h p.2.1
theorem issuer_cs {s c} (p : issuerOk c s) : c.operation = .sendCommand ∨ c.operation = .crc7 → s.csLevel = .high := by
  cases c <;> simp [Issuer.operation]; exact p.1
theorem issuerOk_of_same {s t c} (p : issuerOk c s) (h1 : t.csLevel = s.csLevel) (h2 : t.cap = s.cap) (h3 : t.initState = s.initState)
   (h4 : t.legacy = s.legacy) (h5 : t.cntPoll = s.cntPoll) (h6 : t.params = s.params) (h7 : t.buf = s.buf) : issuerOk c t := by
  cases c <;> simp_all only [issuerOk, inInit, inTransfer, capSettled] <;> simp_all

theorem framerSend_keeps {s c} {k : Fin 6} (h : RegistersOk s) (o : Balanced s 1) (p : issuerOk c s) (hf : s.frame = .written (frameOf c.index c.arg)) :
   BlockInv (framerSend c k s) := by
  have hp := params_wf_iff h.params
  unfold framerSend
  simp only [State.readFrame, hf, readRegister_written, withRead_ok]
  have px : ∀ out, issuerOk c (xfer out s) := fun out => issuerOk_of_same p (by simp) (by simp) (by simp) (by simp) (by simp) (by simp) (by simp)
  apply exchange_spec
  · intro b _
    split
    · apply blockInv_of _ 1 ((h.xfer _).goto _) (by simpa [Balanced] using o) (by simp [Seq.running])
      refine ⟨issuerOk_of_same p (by simp) (by simp) (by simp) (by simp) (by simp) (by simp) (by simp), ?_⟩
      simp [framerOk, hf]
    · apply blockInv_of _ 1
      · have h := h.xfer ((frameOf c.index c.arg).byte k)
        obtain ⟨a,b,c,d,e,f,g,i,j,k,l⟩ := h
        constructor <;> (try assumption)
        simp at *; exact bounded_written hp.1
      · simpa [Balanced] using o
      · simp [Seq.running]
      · refine ⟨issuerOk_of_same p (by simp) (by simp) (by simp) (by simp) (by simp) (by simp) (by simp), ?_⟩
        simp [framerOk, hf, counting, hp.1]
  · intro _
    exact raise_keeps (h.xfer _) (o.xfer _) (by simp) (by simp) (issuer_settled (h.xfer _) (px _)) (issuer_cs (px _))

theorem RegistersOk.loadFrame {s} (c) (h : RegistersOk s) : RegistersOk (loadFrame c s) := by
  obtain ⟨a,b,c',d,e,f,g,i,j,k,l⟩ := h
  constructor <;> simp <;> (try assumption)
  exact frameOf_wf _ _

theorem framerTx_keeps {s c k} (h : BlockInv s) (hs : s.seq = .cmd c (.tx k)) : BlockInv (framerTx c k s) := by
  have hpos := h.position
  simp only [labelOk, hs, framerOk] at hpos
  have o : Balanced s 1 := h.balanced (by simp [hs, Seq.running])
  unfold framerTx; split
  · exact framerSend_keeps (RegistersOk.loadFrame c h.registersOk) (by simpa [Balanced] using o) (issuerOk_of_same hpos.1 (by simp) (by simp) (by simp) (by simp) (by simp) (by simp) (by simp)) (by simp)
  · next hk => exact framerSend_keeps h.registersOk o hpos.1 (hpos.2 hk)

theorem framerRx_keeps {s c} (h : BlockInv s) (hs : s.seq = .cmd c .rx) : BlockInv (framerRx c s) := by
  have hpos := h.position
  simp only [labelOk, hs, framerOk] at hpos
  obtain ⟨p, hf, n, hn, h1, h2⟩ := hpos
  have o : Balanced s 1 := h.balanced (by simp [hs, Seq.running])
  have hb := h.registersOk
  have px : ∀ out, issuerOk c (xfer out s) := fun out => issuerOk_of_same p (by simp) (by simp) (by simp) (by simp) (by simp) (by simp) (by simp)
  unfold framerRx
  simp only [State.readCntResp, hn, readRegister_written, withRead_ok]
  apply exchange_spec
  · intro b _
    have hx := hb.xfer filler
    split
    · next hr =>
      apply afterResponse_keeps
      · obtain ⟨a,b,c,d,e,f,g,i,j,k,l⟩ := hx
        constructor <;> (try assumption)
        simpa [isResponse, notReadyByte] using hr
      · simpa [Balanced] using o
      · exact issuerOk_of_same p (by simp) (by simp) (by simp) (by simp) (by simp) (by simp) (by simp)
    · split
      · next hlt =>
        apply blockInv_of _ 1
        · obtain ⟨a,b,c,d,e,f,g,i,j,k,l⟩ := hx
          constructor <;> (try assumption)
          exact bounded_written hlt
        · simpa [Balanced] using o
        · simp [hs, Seq.running]
        · simp only [labelOk, xfer_seq, hs]
          refine ⟨issuerOk_of_same p (by simp) (by simp) (by simp) (by simp) (by simp) (by simp) (by simp), ?_⟩
          simp [framerOk, hf, counting]; simpa using hlt
      · exact raise_keeps hx (o.xfer _) (by cases c <;> simp [Issuer.timeoutStatus]) (by cases c <;> simp [Issuer.timeoutStatus]) (issuer_settled hx (px _)) (issuer_cs (px _))
  · intro _
    exact raise_keeps (hb.xfer _) (o.xfer _) (by simp) (by simp) (issuer_settled (hb.xfer _) (px _)) (issuer_cs (px _))


theorem RegistersOk.setTail {s} (t) (h : RegistersOk s) : RegistersOk { s with tail := t } := by
  obtain ⟨a,b,c',d,e,f,g,i,j,k,l⟩ := h
  constructor <;> assumption

theorem goto_keeps {s : State} {l : Seq} (h : RegistersOk s) (o : Balanced s 1) (hr : l.running = true) (p : labelOk l (s.goto l)) : BlockInv (s.goto l) :=
  blockInv_of _ 1 (h.goto _) (by simpa [Balanced] using o) (by simp [hr]) p

/-- Every step of the sequencer keeps the invariant. -/
theorem tick_keeps_blockInv {s} (h : BlockInv s) : BlockInv (tick s) := by
  have hp := params_wf_iff h.params
  have hb := h.registersOk
  have hpos := h.position
  unfold tick
  split
  · exact h
  · exact h
  all_goals rename_i hs
  all_goals
    have o : Balanced s 1 := h.balanced (by simp [hs, Seq.running])
    simp only [labelOk, hs] at hpos
  · -- cRun
    unfold crcRun
    refine complete_keeps (s := { s with crc := _ }) ?_ o (by simp) hpos.1 hpos.2
    obtain ⟨a,b,c',d,e,f,g,i,j,k,l⟩ := hb
    constructor <;> assumption
  · exact framerTx_keeps h hs
  · exact framerRx_keeps h hs
  · -- iDesel
    unfold initDeselect
    apply goto_keeps (hb.csSet _) (by simpa [Balanced] using o) (by split <;> simp [Seq.running])
    have : ¬ s.params.powerupDummyBytes = 0 := by omega
    simp [labelOk, this, inInit] at hpos ⊢
    simp [hpos]; omega
  · -- dummy
    unfold initDummy
    apply exchange_spec
    · intro b _
      split_ifs <;> apply goto_keeps (hb.xfer _) (o.xfer _) (by simp [Seq.running]) <;> simp_all [labelOk, inInit]
    · intro _
      exact raise_keeps (hb.xfer _) (o.xfer _) (by simp) (by simp) (by simp) (by simp)
  · unfold initSelect
    apply goto_keeps (hb.csSet _) (by simpa [Balanced] using o) (by simp [Seq.running])
    simpa [labelOk, issuerOk, framerOk, inInit] using hpos.2
  · -- tail
    next k =>
    unfold initCmd8Tail
    obtain ⟨p1, p2, p3⟩ := hpos
    apply exchange_spec
    · intro b _
      split
      · next hk =>
        apply goto_keeps (RegistersOk.setTail _ (hb.xfer _)) (by simpa [Balanced] using o) (by simp [Seq.running])
        simp only [labelOk]
        refine ⟨by simpa using p1, by simpa [inInit] using p2, ?_⟩
        intro j hj
        by_cases e : j = k
        · subst e; simp
        · simp [tail_get_set_other _ _ e]; apply p3; simp at hj; omega
      · next hk =>
        have hk3 : k = 3 := by omega
        subst hk3
        unfold initCheckEcho
        have t2 : ((s.tail.set 3 b).get 2).isWritten = true := by
          rw [tail_get_set_other _ _ (by decide)]; exact p3 2 (by decide)
        obtain ⟨x, hx⟩ := Reg.isWritten_iff.1 t2
        simp only [State.readTail, hx, tail_get_set_same, readRegister_written, withRead_ok, xfer_tail]
        have hb' : RegistersOk { xfer filler s with tail := s.tail.set 3 b } := RegistersOk.setTail _ (hb.xfer _)
        split
        · unfold initEnterPoll
          apply blockInv_of _ 1
          · obtain ⟨a,b,c,d,e,f,g,i,j,k,l⟩ := hb'
            (constructor <;> simp_all); exact bounded_written hp.2.1
          · simpa [Balanced] using o
          · simp [Seq.running]
          · simp [labelOk, issuerOk, framerOk, inInit, counting] at p2 ⊢
            simp [p1, p2, hp.2.1]
        · exact raise_keeps hb' (by simpa [Balanced] using o) (by simp) (by simp) (by simp) (by simp)
    · intro _
      exact raise_keeps (hb.xfer _) (o.xfer _) (by simp) (by simp) (by simp) (by simp)
  · -- ocr
    next k =>
    unfold initOcr
    obtain ⟨p1, p2, p3⟩ := hpos
    apply exchange_spec
    · intro b _
      split
      · next hk =>
        apply goto_keeps (RegistersOk.setTail _ (hb.xfer _)) (by simpa [Balanced] using o) (by simp [Seq.running])
        simp only [labelOk]
        refine ⟨by simpa using p1, by simpa [inInit] using p2, ?_⟩
        intro j hj
        by_cases e : j = k
        · subst e; simp
        · simp [tail_get_set_other _ _ e]; apply p3; simp at hj; omega
      · next hk =>
        have hk3 : k = 3 := by omega
        subst hk3
        unfold initDecideCapacity
        have t2 : ((s.tail.set 3 b).get 0).isWritten = true := by
          rw [tail_get_set_other _ _ (by decide)]; exact p3 0 (by decide)
        obtain ⟨x, hx⟩ := Reg.isWritten_iff.1 t2
        obtain ⟨y, hy⟩ := Reg.isWritten_iff.1 p2.2.1
        simp only [State.readTail, State.readLegacy, hx, hy, xfer_legacy, readRegister_written, withRead_ok, xfer_tail]
        have hb' : RegistersOk { xfer filler s with tail := s.tail.set 3 b } := RegistersOk.setTail _ (hb.xfer _)
        have hc : capacityOf y x ≠ .undefined := by unfold capacityOf; split <;> simp
        have hb2 : RegistersOk { xfer filler s with tail := s.tail.set 3 b, cap := capacityOf y x, legacy := .written y } := by
          obtain ⟨a,b,c,d,e,f,g,i,j,k,l⟩ := hb'
          exact ⟨a,b,c,d,e,f,g,i,j,fun _ => hc,l⟩
        simp [inInit] at p2
        split_ifs with hstd <;> apply goto_keeps hb2 (by simpa [Balanced] using o) (by simp [Seq.running])
        · simp [labelOk, issuerOk, framerOk, inInit, p1, p2, hstd]
        · simp [labelOk, inInit, p1, p2, hc]
    · intro _
      exact raise_keeps (hb.xfer _) (o.xfer _) (by simp) (by simp) (by simp) (by simp)
  · -- iEnd
    unfold initEnd
    obtain ⟨p1, p2, p3, p4⟩ := hpos
    have hc : s.cap ≠ .undefined := by simpa using p4
    apply complete_keeps _ (by simpa [Balanced] using o) (by simp) (by simp) (by simp [capSettled, hc])
    apply RegistersOk.csSet
    obtain ⟨a,b,c,d,e,f,g,i,j,k,l⟩ := hb
    constructor <;> simp_all
  · unfold readSelect
    apply goto_keeps (hb.csSet _) (by simpa [Balanced] using o) (by simp [Seq.running])
    simpa [labelOk, issuerOk, framerOk, inTransfer] using hpos.2
  · -- token
    obtain ⟨p1, p2, n, p3, p4, p5⟩ := hpos
    unfold readToken
    simp only [State.readCntToken, p3, readRegister_written, withRead_ok]
    apply exchange_spec
    · intro b _
      split
      · apply goto_keeps (hb.xfer _) (o.xfer _) (by simp [Seq.running])
        simp_all [labelOk, inTransfer, filled]
      · split
        · next hlt =>
          apply blockInv_of _ 1
          · have hx := hb.xfer filler
            obtain ⟨a,b,c,d,e,f,g,i,j,k,l⟩ := hx
            constructor <;> (try assumption)
            exact bounded_written hlt
          · simpa [Balanced] using o
          · simp [hs, Seq.running]
          · simp_all [labelOk, inTransfer, counting]
        · exact raise_keeps (hb.xfer _) (o.xfer _) (by simp) (by simp) (fun _ => capSettled_of_transfer (hb.xfer _) (by simpa [inTransfer] using p2)) (by simp)
    · intro _
      exact raise_keeps (hb.xfer _) (o.xfer _) (by simp) (by simp) (fun _ => capSettled_of_transfer (hb.xfer _) (by simpa [inTransfer] using p2)) (by simp)
  · -- data
    next k =>
    obtain ⟨p1, p2, p3⟩ := hpos
    unfold readData
    apply exchange_spec
    · intro b _
      rw [memWrite_inside _ _ (by exact k.isLt), withRead_ok]
      have hb2 : RegistersOk { xfer filler s with buf := (xfer filler s).buf.put k.val b } := by
        have hx := hb.xfer filler
        obtain ⟨a,b',c,d,e,f,g,i,j,k',l⟩ := hx
        exact ⟨a,put_wf b' k.isLt,c,d,e,f,g,i,j,k',l⟩
      have hf := filled_put (b := b) p3
      split_ifs with hk <;> apply goto_keeps hb2 (by simpa [Balanced] using o) (by simp [Seq.running])
      · simp_all [labelOk, inTransfer]
      · have e2 : k.val + 1 = blockSize := by simp [blockSize]; omega
        rw [e2] at hf
        simp_all [labelOk, inTransfer]
    · intro _
      exact raise_keeps (hb.xfer _) (o.xfer _) (by simp) (by simp) (fun _ => capSettled_of_transfer (hb.xfer _) (by simpa [inTransfer] using p2)) (by simp)
  · unfold readCrcByte
    apply exchange_spec
    · intro b _
      split_ifs <;> apply goto_keeps (hb.xfer _) (o.xfer _) (by simp [Seq.running]) <;> simp_all [labelOk, inTransfer]
    · intro _
      exact raise_keeps (hb.xfer _) (o.xfer _) (by simp) (by simp) (fun _ => capSettled_of_transfer (hb.xfer _) (by simpa [inTransfer] using hpos.2.1)) (by simp)
  · unfold readEnd
    obtain ⟨bs, hbs⟩ := memReadRange_filled blockSize (m := s.buf) (o := 0) ((wf_iff _).1 hb.buf).1 (fun k _ hk => hpos.2.2 k (by omega))
    rw [hbs, withRead_ok]
    exact complete_keeps (hb.csSet _) (by simpa [Balanced] using o) (by simp) (by simp) (capSettled_of_transfer (hb.csSet _) (by simpa [inTransfer] using hpos.2.1))
  · unfold writeSelect
    apply goto_keeps (hb.csSet _) (by simpa [Balanced] using o) (by simp [Seq.running])
    simpa [labelOk, issuerOk, framerOk, inTransfer] using hpos.2
  · unfold writeGap
    apply exchange_spec
    · intro b _
      split_ifs <;> apply goto_keeps (hb.xfer _) (o.xfer _) (by simp [Seq.running]) <;> simp_all [labelOk, inTransfer]
    · intro _
      exact raise_keeps (hb.xfer _) (o.xfer _) (by simp) (by simp) (fun _ => capSettled_of_transfer (hb.xfer _) (by simpa [inTransfer] using hpos.2.1)) (by simp)
  · unfold writeToken
    apply exchange_spec
    · intro b _
      apply goto_keeps (hb.xfer _) (o.xfer _) (by simp [Seq.running])
      simp_all [labelOk, inTransfer]
    · intro _
      exact raise_keeps (hb.xfer _) (o.xfer _) (by simp) (by simp) (fun _ => capSettled_of_transfer (hb.xfer _) (by simpa [inTransfer] using hpos.2.1)) (by simp)
  · next k =>
    unfold writeData
    obtain ⟨p1, p2, p3⟩ := hpos
    obtain ⟨x, hx⟩ := memRead_filled p3 (k := k.val) k.isLt (by simp [blockSize])
    rw [hx, withRead_ok]
    apply exchange_spec
    · intro b _
      split_ifs <;> apply goto_keeps (hb.xfer _) (o.xfer _) (by simp [Seq.running]) <;> simp_all [labelOk, inTransfer]
    · intro _
      exact raise_keeps (hb.xfer _) (o.xfer _) (by simp) (by simp) (fun _ => capSettled_of_transfer (hb.xfer _) (by simpa [inTransfer] using p2)) (by simp)
  · unfold writeCrcByte
    apply exchange_spec
    · intro b _
      split_ifs <;> apply goto_keeps (hb.xfer _) (o.xfer _) (by simp [Seq.running]) <;> simp_all [labelOk, inTransfer]
    · intro _
      exact raise_keeps (hb.xfer _) (o.xfer _) (by simp) (by simp) (fun _ => capSettled_of_transfer (hb.xfer _) (by simpa [inTransfer] using hpos.2)) (by simp)
  · unfold writeResponse
    apply exchange_spec
    · intro b _
      split
      · apply blockInv_of _ 1
        · have hx := hb.xfer filler
          obtain ⟨a,b,c,d,e,f,g,i,j,k,l⟩ := hx
          constructor <;> (try assumption)
          exact bounded_written (by simpa using hp.2.2.2.1)
        · simpa [Balanced] using o
        · simp [Seq.running]
        · simp_all [labelOk, inTransfer, counting]
      · exact raise_keeps (hb.xfer _) (o.xfer _) (by simp) (by simp) (fun _ => capSettled_of_transfer (hb.xfer _) (by simpa [inTransfer] using hpos.2)) (by simp)
    · intro _
      exact raise_keeps (hb.xfer _) (o.xfer _) (by simp) (by simp) (fun _ => capSettled_of_transfer (hb.xfer _) (by simpa [inTransfer] using hpos.2)) (by simp)
  · obtain ⟨p1, p2, n, p3, p4, p5⟩ := hpos
    unfold writeBusy
    simp only [State.readCntBusy, p3, readRegister_written, withRead_ok]
    apply exchange_spec
    · intro b _
      split
      · apply goto_keeps (hb.xfer _) (o.xfer _) (by simp [Seq.running])
        simp_all [labelOk, inTransfer]
      · split
        · next hlt =>
          apply blockInv_of _ 1
          · have hx := hb.xfer filler
            obtain ⟨a,b,c,d,e,f,g,i,j,k,l⟩ := hx
            constructor <;> (try assumption)
            exact bounded_written hlt
          · simpa [Balanced] using o
          · simp [hs, Seq.running]
          · simp_all [labelOk, inTransfer, counting]
        · apply goto_keeps (hb.xfer _) (o.xfer _) (by simp [Seq.running])
          simp_all [labelOk, inTransfer]
    · intro _
      exact raise_keeps (hb.xfer _) (o.xfer _) (by simp) (by simp) (fun _ => capSettled_of_transfer (hb.xfer _) (by simpa [inTransfer] using p2)) (by simp)
  · unfold writeEnd
    exact complete_keeps (hb.csSet _) (by simpa [Balanced] using o) (by simp) (by simp) (capSettled_of_transfer (hb.csSet _) (by simpa [inTransfer] using hpos.2))

theorem wireAddress_addressOk {cap index a} (h : wireAddress cap index = .ok a) : addressOk cap a := by
  intro hc; subst hc
  simp only [wireAddress, standardAddress] at h
  split at h
  · next hh =>
    split at hh
    · cases hh; cases h
      simp [BitVec.toNat_shiftLeft, Nat.shiftLeft_eq]; try omega
    · cases hh
  · cases h

end Sys2Proof.Machine
end

