-- ==== Sys2Proof/Laws/PerInstr.lean ====
section
/-!
SUPPORT. What holds of the encoding of each instruction as syntax, one lemma for each constructor of Instr: a wire command is a frame
of six bytes whose first byte begins with 01 and whose last ends with the stop bit (spec/30_encoding.md rule R54), a host operation a
request that begins with an operation code from 0x01 to 0x05 (rule R70).
-/

namespace Sys2Proof.Laws.EncodeShape

open Sys2Proof Sys2Proof.Machine

/-- The shape of an instruction's code bytes. -/
def Statement (i : Instr) : Prop :=
  match encode i with
  | .frame bytes => ∃ first middle last, bytes = first :: (middle ++ [last]) ∧ middle.length = 4 ∧
      first.toNat / 64 = 1 ∧ last.toNat % 2 = 1
  | .request bytes => ∃ op operands, bytes = op :: operands ∧ 1 ≤ op.toNat ∧ op.toNat ≤ 5

/-- Every frame has the shape. -/
theorem of_frame {i : Instr} {index : CmdIndex} {arg : Word32} (h : encode i = .frame (frameBytes index arg)) : Statement i := by
  simp only [Statement, h]
  refine ⟨commandByte index, bytesBe32 arg, crcStopByte (frameCrc index arg), rfl, rfl, ?_, ?_⟩
  · have := index.isLt
    rw [commandByte_toNat]; omega
  · rw [crcStopByte_toNat]; omega

/-- Every request that begins with one of the five codes has the shape. -/
theorem of_request {i : Instr} {op : Byte} {operands : List Byte} (h : encode i = .request (op :: operands))
    (hop : 1 ≤ op.toNat ∧ op.toNat ≤ 5) : Statement i := by
  simp only [Statement, h]
  exact ⟨op, operands, rfl, hop⟩

theorem cmd0 : Statement .cmd0 := of_frame rfl
theorem cmd8 : Statement .cmd8 := of_frame rfl
theorem cmd16 : Statement .cmd16 := of_frame rfl
theorem cmd17 (arg : Word32) : Statement (.cmd17 arg) := of_frame rfl
theorem cmd24 (arg : Word32) : Statement (.cmd24 arg) := of_frame rfl
theorem cmd55 : Statement .cmd55 := of_frame rfl
theorem acmd41 : Statement .acmd41 := of_frame rfl
theorem cmd58 : Statement .cmd58 := of_frame rfl
theorem crc7 (data : List Byte) : Statement (.crc7 data) := of_request rfl (by decide)
theorem sendCommand (index : CmdIndex) (arg : Word32) : Statement (.sendCommand index arg) := of_request rfl (by decide)
theorem init : Statement .init := of_request rfl (by decide)
theorem readBlock (index : Word32) : Statement (.readBlock index) := of_request rfl (by decide)
theorem writeBlock (index : Word32) (data : List Byte) : Statement (.writeBlock index data) := of_request rfl (by decide)

end Sys2Proof.Laws.EncodeShape
end

