-- ==== Sys2Proof/Tests/Slice0.lean ====
section
/-!
SUPPORT. Tests against the spec's own encodings and test vectors (spec/95_test_vectors.md; the identifiers V-… are its rows), the
smoke test of WellFormed, and for each obligation with hypotheses a concrete state and operands that meet all of them together.
-/

namespace Sys2Proof.Tests

open Sys2Proof Sys2Proof.Machine

/-! ## Helpers -/

/-- A byte answered n times. -/
def times (n : Nat) (b : Byte) : List Byte := List.replicate n b

/-- The state after reset with card answers to come. -/
def withCard (bs : List Answer) : State := { State.reset with answers := bs }

/-- A block that is Ready with a high-capacity card. -/
def readyState (bs : List Answer) : State := { State.reset with initState := .ready, cap := .high, answers := bs }

/-- One field of the next state of an instruction. -/
def after {α : Type} (i : Instr) (s : State) (f : State → α) : Option α :=
  match exec i s with
  | .next t => some (f t)
  | .fault _ => none
  | .refused _ => none

/-- Why an instruction is refused. -/
def refusal (i : Instr) (s : State) : Option Refusal :=
  match exec i s with
  | .next _ => none
  | .fault _ => none
  | .refused r => some r

/-- Why a step is refused. -/
def stepRefusal (s : State) : Option Refusal :=
  match step s with
  | .next _ => none
  | .fault _ => none
  | .refused r => some r

/-- What an operation reports, the readiness and class it leaves, and the number of exchanges. -/
def report (t : State) : (Reg Result × InitState × Cap) × Level × Nat :=
  ((t.result, t.initState, t.cap), t.csLevel, exchangeCount t.history)

/-- Six bytes while a frame goes out, then the response at the first read. -/
def r1Answer (r : Byte) : List Byte := times 6 0xFF#8 ++ [r]

/-- The answers of a card that takes INIT to Ready, up to the given last part. -/
def goodStart (last : List Byte) : List Answer :=
  bytesAnswered (times 10 0xFF#8 ++ r1Answer 0x01#8 ++ r1Answer 0x01#8 ++ [0x00#8, 0x00#8, 0x01#8, 0xAA#8] ++
    r1Answer 0x01#8 ++ r1Answer 0x00#8 ++ last)

/-- The error a RESULT reports. -/
def err (k : Status) (t : StepTag) : Reg Result :=
  .written { status := k, step := some t, busyExhausted := false, value := none }

/-- A success with a value or none. -/
def okWith (v : Option Value) : Reg Result := .written { status := .ok, step := none, busyExhausted := false, value := v }

/-! ## WellFormed and the decoder's refusals -/

theorem test_wellFormed_refuses_511_bytes : (Instr.writeBlock 0#32 (times 511 0#8)).wellFormed = false := by decide +kernel
theorem test_wellFormed_accepts_512_bytes : (Instr.writeBlock 0#32 (times 512 0#8)).wellFormed = true := by decide +kernel
theorem test_decode_refuses_index_64 :
    decode (.request [0x02#8, 0x40#8, 0#8, 0#8, 0#8, 0#8]) = .error .indexAbove63 := by rfl
theorem test_decode_refuses_code_6 : decode (.request [0x06#8]) = .error .unknownOperation := by rfl
theorem test_decode_refuses_code_0 : decode (.request [0x00#8]) = .error .unknownOperation := by rfl
theorem test_decode_refuses_no_code : decode (.request []) = .error .unknownOperation := by rfl
theorem test_decode_refuses_init_operand : decode (.request [0x03#8, 0x00#8]) = .error .operandLength := by rfl
theorem test_decode_refuses_511_bytes :
    decode (.request (0x05#8 :: (times 4 0#8 ++ times 511 0#8))) = .error .dataLength := by decide +kernel
theorem test_decode_refuses_frame_of_index_1 :
    decode (.frame [0x41#8, 0x00#8, 0x00#8, 0x00#8, 0x00#8, 0xF9#8]) = .error .unknownFrame := by rfl
theorem test_decode_refuses_stop_bit_0 :
    decode (.frame [0x51#8, 0x00#8, 0x00#8, 0x00#8, 0x00#8, 0x54#8]) = .error .unknownFrame := by rfl

/-! ## Decoding: words written out from spec/30_encoding.md rules R58 and R70 -/

theorem test_decode_CMD0 : decodeTableWord 48 0b010000000000000000000000000000000000000010010101 = some .cmd0 := by decide
theorem test_decode_CMD8 : decodeTableWord 48 0b010010000000000000000000000000011010101010000111 = some .cmd8 := by decide
theorem test_decode_CMD16 : decodeTableWord 48 0b010100000000000000000000000000100000000000010101 = some .cmd16 := by decide
/-- V-FRM-10. -/
theorem test_decode_CMD17 :
    decodeTableWord 48 0b010100010000000000000000000000100000000001111001 = some (.cmd17 0x200#32) := by decide
/-- V-FRM-18. -/
theorem test_decode_CMD24 :
    decodeTableWord 48 0b010110000000000000000000000000000000100011111111 = some (.cmd24 0x8#32) := by decide
theorem test_decode_CMD55 : decodeTableWord 48 0b011101110000000000000000000000000000000001100101 = some .cmd55 := by decide
theorem test_decode_ACMD41 : decodeTableWord 48 0b011010010100000000000000000000000000000001110111 = some .acmd41 := by decide
theorem test_decode_CMD58 : decodeTableWord 48 0b011110100000000000000000000000000000000011111101 = some .cmd58 := by decide
theorem test_decode_CRC7 : decode (.request [0x01#8, 0x31#8, 0x32#8]) = .ok (.crc7 [0x31#8, 0x32#8]) := by rfl
theorem test_decode_SEND_COMMAND :
    decode (.request [0x02#8, 0x3F#8, 0x12#8, 0x34#8, 0x56#8, 0x78#8]) = .ok (.sendCommand 63#6 0x12345678#32) := by rfl
theorem test_decode_INIT : decode (.request [0x03#8]) = .ok .init := by rfl
theorem test_decode_READ_BLOCK :
    decode (.request [0x04#8, 0x00#8, 0x00#8, 0x00#8, 0x05#8]) = .ok (.readBlock 5#32) := by rfl
theorem test_decode_WRITE_BLOCK :
    decode (.request (0x05#8 :: ([0x00#8, 0x00#8, 0x00#8, 0x08#8] ++ times 512 0xA5#8))) =
      .ok (.writeBlock 8#32 (times 512 0xA5#8)) := by decide +kernel
/-- The operand words of a table row are zeros. -/
theorem test_decode_table_WRITE_BLOCK : decodeTableWord 8 0x05 = some (.writeBlock 0#32 (times 512 0#8)) := by decide +kernel

/-- V-FRM-2, V-FRM-14, V-FRM-26: the encoder's frames. -/
theorem test_encode_frames :
    encode .cmd8 = .frame [0x48#8, 0x00#8, 0x00#8, 0x01#8, 0xAA#8, 0x87#8] ∧
    encode (.cmd17 0xFFFFFE00#32) = .frame [0x51#8, 0xFF#8, 0xFF#8, 0xFE#8, 0x00#8, 0x9B#8] ∧
    frameBytes 63#6 0xFFFFFFFF#32 = [0x7F#8, 0xFF#8, 0xFF#8, 0xFF#8, 0xFF#8, 0x19#8] := by decide +kernel

/-! ## The step runs the instruction of a table word first after reset -/

theorem test_fetch_SEND_COMMAND :
    step (State.reset.withFetchWord 8 0x02) = exec (.sendCommand 0#6 0#32) State.reset := by rfl
theorem test_fetch_CMD58 :
    ((State.reset.withFetchWord 48 0x7A00000000FD).seq, decode (encode .cmd58)) = (.cmd .iCmd58 (.tx 0), .ok .cmd58) := by
  decide +kernel

/-! ## CRC7: V-CRC-4, V-CRC-11, V-CRC-12, V-CRC-15 -/

theorem test_CRC7_values :
    crc7 [0x01#8] = 0x09#7 ∧ crc7 [0x48#8, 0x00#8, 0x00#8, 0x01#8, 0xAA#8] = 0x43#7 ∧ crc7 (times 5 0xFF#8) = 0x11#7 ∧
    crc7 [0x31#8, 0x32#8, 0x33#8, 0x34#8, 0x35#8, 0x36#8, 0x37#8, 0x38#8, 0x39#8] = 0x75#7 := by decide +kernel
/-- V-CRC-10: no exchange, no pin event. -/
theorem test_CRC7_runs :
    after (.crc7 [0x40#8, 0x00#8, 0x00#8, 0x00#8, 0x00#8]) State.reset (fun t => (t.result, t.history.length)) =
      some (okWith (some (.crc 0x4A#7)), 2) := by decide +kernel

/-! ## SEND_COMMAND: V-CMD-6, V-CMD-7 -/

/-- A byte received during the frame is discarded. -/
theorem test_SEND_COMMAND_discards_frame_bytes :
    after (.sendCommand 0#6 0#32)
      (withCard (bytesAnswered [0xFF#8, 0xFF#8, 0xFF#8, 0x00#8, 0xFF#8, 0xFF#8, 0x01#8])) report =
      some ((okWith (some (.r1 0x01#8)), .uninit, .undefined), .high, 7) := by decide +kernel
/-- The fourth exchange faults. -/
theorem test_SEND_COMMAND_fault :
    after (.sendCommand 0#6 0#32) (withCard (bytesAnswered (times 3 0xFF#8) ++ [.fault])) report =
      some ((err .transportFailure .sHostCmd, .uninit, .undefined), .high, 4) := by decide +kernel

/-! ## INIT: V-INIT-6, V-INIT-7 -/

theorem test_INIT_high :
    after .init (withCard (goodStart (r1Answer 0x00#8 ++ [0xC0#8, 0x00#8, 0x00#8, 0x00#8]))) report =
      some ((okWith none, .ready, .high), .high, 53) := by decide +kernel
/-- A legacy card is Standard though its OCR[30] is 1. -/
theorem test_INIT_legacy :
    after .init (withCard (bytesAnswered (times 10 0xFF#8 ++ r1Answer 0x01#8 ++ r1Answer 0x04#8 ++ r1Answer 0x01#8 ++
      r1Answer 0x00#8 ++ r1Answer 0x00#8 ++ [0x40#8, 0x00#8, 0x00#8, 0x00#8] ++ r1Answer 0x00#8))) report =
      some ((okWith none, .ready, .standard), .high, 56) := by decide +kernel

/-! ## The wire commands, through V-INIT-1, -5, -9, -10, -11, -14 and V-RD-6, V-WR-13 at the label that issues each -/

/-- A block inside INIT, at the label of a command. -/
def inside (c : Issuer) (bs : List Byte) : State :=
  { State.reset with
    csLevel := .low, legacy := .written false, cntPoll := .written 1, seq := .cmd c (.tx 0), answers := bytesAnswered bs }

/-- A block inside a transfer, at the label of its command. -/
def insideTransfer (c : Issuer) (bs : List Byte) : State :=
  { readyState (bytesAnswered bs) with csLevel := .low, seq := .cmd c (.tx 0) }

theorem test_CMD0_idle : after .cmd0 (inside .iCmd0 (r1Answer 0x01#8)) State.seq = some (.cmd .iCmd8 (.tx 0)) := by
  decide +kernel
theorem test_CMD0_not_idle :
    after .cmd0 (inside .iCmd0 (r1Answer 0x00#8)) report = some ((err .initFailed .sCmd0, .failed, .undefined), .high, 7) := by
  decide +kernel
theorem test_CMD8_legacy : after .cmd8 (inside .iCmd8 (r1Answer 0x05#8)) (fun t => (t.legacy, t.seq)) =
    some (.written true, .cmd .iCmd55 (.tx 0)) := by decide +kernel
theorem test_CMD8_timeout :
    after .cmd8 (inside .iCmd8 (times 14 0xFF#8)) report =
      some ((err .timeoutResponse .sCmd8, .failed, .undefined), .high, 14) := by decide +kernel
theorem test_CMD16_bad :
    after .cmd16 (inside .iCmd16 (r1Answer 0x05#8)) report =
      some ((err .badResponse .sCmd16, .failed, .undefined), .high, 7) := by decide +kernel
theorem test_CMD17_bad :
    after (.cmd17 5#32) (insideTransfer (.rbCmd17 5#32) (r1Answer 0x05#8)) report =
      some ((err .badResponse .sCmd17, .ready, .high), .high, 7) := by decide +kernel
theorem test_CMD17_good :
    after (.cmd17 5#32) (insideTransfer (.rbCmd17 5#32) (r1Answer 0x00#8)) (fun t => (t.seq, t.cntToken, t.frame)) =
      some (.rbToken, .written 1, .written { b0 := 0x51#8, b1 := 0#8, b2 := 0#8, b3 := 0#8, b4 := 5#8, b5 := 0x0F#8 }) := by
  decide +kernel
theorem test_CMD24_timeout :
    after (.cmd24 8#32) (insideTransfer (.wbCmd24 8#32) (times 14 0xFF#8)) report =
      some ((err .timeoutResponse .sCmd24, .ready, .high), .high, 14) := by decide +kernel
theorem test_CMD55_ignores_illegal :
    after .cmd55 (inside .iCmd55 (r1Answer 0x05#8)) State.seq = some (.cmd .iAcmd41 (.tx 0)) := by decide +kernel
theorem test_ACMD41_again :
    after .acmd41 (inside .iAcmd41 (r1Answer 0x01#8)) (fun t => (t.seq, t.cntPoll)) =
      some (.cmd .iCmd55 (.tx 0), .written 2) := by decide +kernel
theorem test_ACMD41_exhausted :
    after .acmd41 { inside .iAcmd41 (r1Answer 0x01#8) with cntPoll := .written 2000 } report =
      some ((err .timeoutInitPoll .sPoll, .failed, .undefined), .high, 7) := by decide +kernel
theorem test_CMD58_bad :
    after .cmd58 (inside .iCmd58 (r1Answer 0x01#8)) report =
      some ((err .badResponse .sCmd58, .failed, .undefined), .high, 7) := by decide +kernel

/-! ## READ_BLOCK: V-RD-4 with a limit of 3 -/

/-- The token poll runs out; RESULT.value has no value. -/
theorem test_READ_BLOCK_no_token :
    after (.readBlock 5#32)
      { readyState (bytesAnswered (r1Answer 0x00#8 ++ [0x01#8, 0x0F#8, 0xFF#8])) with
        params := { Params.default with tokenPollLimit := 3 } } report =
      some ((err .timeoutDataToken .sReadToken, .ready, .high), .high, 10) := by decide +kernel
/-- One payload byte, as R119 says: byte k after the token is stored in BUF[k]. -/
theorem test_READ_BLOCK_stores_byte :
    ((tick { readyState [.byte 0x7E#8] with csLevel := .low, seq := .rbData 3 }).buf.byteAt 3,
      (tick { readyState [.byte 0x7E#8] with csLevel := .low, seq := .rbData 3 }).seq) = (some 0x7E#8, .rbData 4) := by
  decide +kernel

/-! ## WRITE_BLOCK: V-WR-14, V-WR-5 at its last exchange, V-WR-15 -/

/-- The data token exchange faults: no payload byte is sent. -/
theorem test_WRITE_BLOCK_token_fault :
    after (.writeBlock 8#32 (times 512 0xA5#8)) (readyState (bytesAnswered (r1Answer 0x00#8) ++ [.fault])) report =
      some ((err .transportFailure .sWriteData, .ready, .high), .high, 8) := by decide +kernel
theorem test_WRITE_BLOCK_rejected :
    ((tick { readyState [.byte 0x0D#8] with csLevel := .low, seq := .wbResp }).result,
      (tick { readyState [.byte 0x0D#8] with csLevel := .low, seq := .wbResp }).csLevel) =
      (err .badResponse .sDataResp, .high) := by decide +kernel

/-! ## Refusals: V-REF-1, -2, -5, V-ADR-5, V-WR-15, and before any INIT -/

theorem test_refuses_code_7 : stepRefusal { State.reset with requests := [[0x07#8]] } = some .badRequest := by decide +kernel
theorem test_refuses_while_running :
    refusal .init { State.reset with seq := .iSel } = some .busy := by decide +kernel
theorem test_refuses_before_init : refusal (.readBlock 0#32) State.reset = some .notReady := by decide +kernel
theorem test_refuses_short_data : refusal (.writeBlock 0#32 (times 511 0#8)) (readyState []) = some .badRequest := by
  decide +kernel
theorem test_refuses_overflow :
    refusal (.readBlock 0x00800000#32) { readyState [] with cap := .standard } = some .addrOverflow := by decide +kernel
theorem test_refuses_stray_frame : refusal .cmd58 State.reset = some .notIssuedHere := by decide +kernel
/-- V-REF-5, at RESULT and at its value. -/
theorem test_result_before_any_operation :
    State.reset.readResult = .error (.noValue .result) ∧ State.reset.readResultValue = .error (.noValue .result) := ⟨rfl, rfl⟩
/-- V-REF-6 after V-RD-4, and the "value none" of a RESULT that spec/95_test_vectors.md section 9 gives an INIT and a failed
WRITE_BLOCK. -/
theorem test_result_value :
    ({ State.reset with result := err .timeoutDataToken .sReadToken }).readResultValue = .error (.noValue .resultValue) ∧
    ({ State.reset with result := okWith none }).readResultValue = .ok none ∧
    ({ State.reset with result := err .badResponse .sDataResp }).readResultValue = .ok none := ⟨rfl, rfl, rfl⟩

/-- V-ADR-4, V-ADR-6, V-ADR-11. -/
theorem test_wire_addresses :
    wireAddress .standard 0x007FFFFF#32 = .ok 0xFFFFFE00#32 ∧ wireAddress .standard 0xFFFFFFFF#32 = .error .addrOverflow ∧
    wireAddress .high 0xFFFFFFFF#32 = .ok 0xFFFFFFFF#32 := by
  refine ⟨?_, ?_, ?_⟩ <;> rfl

/-! ## Witnesses: a concrete state and operands that meet the hypotheses of each obligation that has any -/

/-- A reply at read k+1, the card returning 0xFF while the frame goes out. -/
def reply (delay : Nat) (r : Byte) : Reply := { junk := times 6 0xFF#8, delay := delay, r1 := r }

theorem reply_ok {delay limit : Nat} {r : Byte} (h : delay < limit) (hr : r ≠ 0xFF#8) : (reply delay r).ok limit :=
  ⟨rfl, h, hr⟩

/-- INIT just accepted after reset. -/
def initBegun (bs : List Answer) : State := initEntry ((withCard bs).log (.begun .init))

theorem initBegun_inv (bs : List Answer) : BlockInv (initBegun bs) where
  params := by rfl
  buf := by rfl
  r1 := by simp [initBegun, initEntry, withCard, State.reset, State.log, State.goto]
  frame := by simp [initBegun, initEntry, withCard, State.reset, State.log, State.goto]
  cntResp := by simp [bounded, initBegun, initEntry, withCard, State.reset, State.log, State.goto]
  cntPoll := by simp [bounded, initBegun, initEntry, withCard, State.reset, State.log, State.goto]
  cntToken := by simp [bounded, initBegun, initEntry, withCard, State.reset, State.log, State.goto]
  cntBusy := by simp [bounded, initBegun, initEntry, withCard, State.reset, State.log, State.goto]
  result := by simp [initBegun, initEntry, withCard, State.reset, State.log, State.goto]
  ready := by simp [initBegun, initEntry, withCard, State.reset, State.log, State.goto]
  pin := by rfl
  balance := by rfl
  position := ⟨rfl, rfl, rfl, by simp [initBegun, initEntry, withCard, State.reset, State.log, State.goto]⟩

/-- A state of a run of INIT meets the invariant. -/
theorem initBegun_run_inv (bs : List Answer) (n : Nat) : BlockInv (runFor n (initBegun bs)) :=
  runFor_keeps (fun _ h => tick_keeps_blockInv h) n (initBegun_inv bs)

/-- A Ready block, and one whose READ_BLOCK has just been accepted. -/
theorem readyState_inv (bs : List Answer) : BlockInv (readyState bs) where
  params := by rfl
  buf := by rfl
  r1 := by simp [readyState, State.reset]
  frame := by simp [readyState, State.reset]
  cntResp := by simp [bounded, readyState, State.reset]
  cntPoll := by simp [bounded, readyState, State.reset]
  cntToken := by simp [bounded, readyState, State.reset]
  cntBusy := by simp [bounded, readyState, State.reset]
  result := by simp [readyState, State.reset]
  ready := by simp [readyState]
  pin := by rfl
  balance := by rfl
  position := ⟨rfl, by simp [capSettled, readyState]⟩

/-- A block before any INIT, one that clocks 11 dummy bytes. -/
def freshState : State := { State.reset with params := { Params.default with powerupDummyBytes := 11 } }

theorem freshState_inv : BlockInv freshState where
  params := by decide
  buf := by decide
  r1 := by simp [freshState, State.reset]
  frame := by simp [freshState, State.reset]
  cntResp := by simp [bounded, freshState, State.reset]
  cntPoll := by simp [bounded, freshState, State.reset]
  cntToken := by simp [bounded, freshState, State.reset]
  cntBusy := by simp [bounded, freshState, State.reset]
  result := by simp [freshState, State.reset]
  ready := by simp [freshState, State.reset]
  pin := by rfl
  balance := by rfl
  position := ⟨rfl, by simp [capSettled, freshState, State.reset]⟩

/-! ### Encoding -/

theorem test_witness_DecodeOfEncodeIsTheInstruction : (Instr.sendCommand 63#6 0xFFFFFFFF#32).wellFormed = true := by rfl
theorem test_witness_DecodedBytesAreTheEncoding :
    decode (.request [0x03#8]) = .ok .init ∧
    decode (.frame [0x51#8, 0x00#8, 0x00#8, 0x00#8, 0x00#8, 0x01#8]) = .ok (.cmd17 0#32) := by decide
/-- One state for each kind of bad request. -/
theorem test_witness_BadRequestsAreRefused :
    (∃ s : State, s.seq = .idle ∧ s.requests = [0x06#8, 0x00#8] :: [] ∧ 5 < (0x06#8 : Byte).toNat) ∧
    (∃ s : State, s.seq = .idle ∧ s.requests = [0x02#8, 0x40#8] :: [] ∧ 63 < (0x40#8 : Byte).toNat) ∧
    (∃ s : State, s.seq = .idle ∧ s.requests = (0x05#8 :: ([0#8, 0#8, 0#8, 0#8] ++ [0#8])) :: [] ∧ ([0#8] : List Byte).length ≠ 512) :=
  ⟨⟨{ State.reset with requests := [[0x06#8, 0x00#8]] }, rfl, rfl, by decide⟩,
    ⟨{ State.reset with requests := [[0x02#8, 0x40#8]] }, rfl, rfl, by decide⟩,
    ⟨{ State.reset with requests := [[0x05#8, 0#8, 0#8, 0#8, 0#8, 0#8]] }, rfl, rfl, by decide⟩⟩
/-- The clause of the wire commands, and the clause of the host's SEND_COMMAND. -/
theorem test_witness_LoadedFrameIsTheEncodedCommand :
    (Issuer.rbCmd17 0x200#32).wireCommand = some (.cmd17 0x200#32) ∧
    Issuer.host 63#6 0xFFFFFFFF#32 = .host 63#6 0xFFFFFFFF#32 := ⟨rfl, rfl⟩
/-- Every wire command is issued at some label, as one of the rows of R58. -/
theorem test_issuedAs_every_wireCommand (c : Issuer) (i : Instr) (h : c.wireCommand = some i) :
    ∃ op tag, IssuedAs c i op tag := by
  cases c <;> simp only [Issuer.wireCommand, Option.some.injEq, reduceCtorEq] at h <;> subst h
  exacts [⟨_, _, .cmd0⟩, ⟨_, _, .cmd8⟩, ⟨_, _, .cmd55⟩, ⟨_, _, .acmd41⟩, ⟨_, _, .cmd58⟩, ⟨_, _, .cmd16⟩, ⟨_, _, .cmd17 _⟩,
    ⟨_, _, .cmd24 _⟩]

/-! ### The CRC generator, the framer and the wire commands -/

theorem test_witness_Crc7Completes : State.reset.seq = .idle := by rfl

/-- A state at the first byte of a command with a reply and then more answers to come. -/
def issuing (c : Issuer) (a : Reply) : State :=
  { State.reset with csLevel := .low, cntPoll := .written 1, seq := .cmd c (.tx 0), answers := a.answers ++ [.fault] }

/-- A state at the first read of a response poll. -/
def polling (c : Issuer) (bs : List Byte) : State :=
  { State.reset with cntResp := .written 1, seq := .cmd c .rx, answers := bytesAnswered bs ++ [] }

theorem test_witness_BytesReceivedDuringTheFrameAreDiscarded :
    ∃ s : State, s.seq = .cmd .iCmd0 (.tx 0) ∧ (times 6 0x00#8).length = 6 ∧ s.answers = bytesAnswered (times 6 0x00#8) ++ [] :=
  ⟨{ State.reset with seq := .cmd .iCmd0 (.tx 0), answers := bytesAnswered (times 6 0x00#8) ++ [] }, rfl, rfl, rfl⟩
/-- The response at the last allowed read. -/
theorem test_witness_FirstByteNotFillerIsTheResponse :
    (polling .iCmd0 (List.replicate 7 0xFF#8 ++ [0x01#8])).seq = .cmd .iCmd0 .rx ∧
    (polling .iCmd0 (List.replicate 7 0xFF#8 ++ [0x01#8])).cntResp = .written 1 ∧
    7 < (polling .iCmd0 (List.replicate 7 0xFF#8 ++ [0x01#8])).params.respPollLimit ∧ (0x01#8 : Byte) ≠ 0xFF#8 ∧
    (polling .iCmd0 (List.replicate 7 0xFF#8 ++ [0x01#8])).answers =
      bytesAnswered (List.replicate 7 0xFF#8 ++ [0x01#8]) ++ [] :=
  ⟨rfl, rfl, by decide, by decide, rfl⟩
theorem test_witness_SilentCardTimesOut :
    (polling .iCmd0 (List.replicate 8 0xFF#8)).seq = .cmd .iCmd0 .rx ∧
    (polling .iCmd0 (List.replicate 8 0xFF#8)).seq.exchangeTag = some .sCmd0 ∧
    (polling .iCmd0 (List.replicate 8 0xFF#8)).cntResp = .written 1 ∧
    1 ≤ (polling .iCmd0 (List.replicate 8 0xFF#8)).params.respPollLimit ∧
    (polling .iCmd0 (List.replicate 8 0xFF#8)).answers =
      bytesAnswered (List.replicate (polling .iCmd0 (List.replicate 8 0xFF#8)).params.respPollLimit 0xFF#8) ++ [] :=
  ⟨rfl, rfl, rfl, by decide, rfl⟩
/-- INIT after its power-up clocking: the first byte of CMD0. -/
theorem test_witness_FramerLeavesChipSelectAlone :
    BlockInv (runFor 12 (initBegun (bytesAnswered (times 20 0xFF#8)))) ∧
    (runFor 12 (initBegun (bytesAnswered (times 20 0xFF#8)))).seq = .cmd .iCmd0 (.tx 0) :=
  ⟨initBegun_run_inv _ _, by decide +kernel⟩
theorem test_witness_SendCommandReturnsTheResponse :
    (withCard ((reply 7 0x80#8).answers ++ [])).seq = .idle ∧
    (reply 7 0x80#8).ok (withCard ((reply 7 0x80#8).answers ++ [])).params.respPollLimit ∧
    (withCard ((reply 7 0x80#8).answers ++ [])).answers = (reply 7 0x80#8).answers ++ [] :=
  ⟨rfl, reply_ok (by decide) (by decide), rfl⟩
theorem test_witness_SendCommandAlwaysCompletes : State.reset.seq = .idle ∧ 1 ≤ State.reset.params.respPollLimit := by decide

/-- The hypotheses of the statement of any of the eight wire commands: at its label, with a reply. -/
theorem issuing_meets (c : Issuer) (r : Byte) (hr : r ≠ 0xFF#8) :
    (issuing c (reply 7 r)).seq = .cmd c (.tx 0) ∧ (reply 7 r).ok (issuing c (reply 7 r)).params.respPollLimit ∧
    (issuing c (reply 7 r)).answers = (reply 7 r).answers ++ [.fault] :=
  ⟨rfl, reply_ok (show 7 < 8 by decide) hr, rfl⟩

theorem test_witness_Cmd0NeedsTheIdleResponse :
    (issuing .iCmd0 (reply 7 0x01#8)).seq = .cmd .iCmd0 (.tx 0) ∧
    (reply 7 0x01#8).ok (issuing .iCmd0 (reply 7 0x01#8)).params.respPollLimit ∧
    (issuing .iCmd0 (reply 7 0x01#8)).answers = (reply 7 0x01#8).answers ++ [.fault] := issuing_meets _ _ (by decide)
theorem test_witness_Cmd8DecidesLegacyByBit2 :
    (issuing .iCmd8 (reply 7 0x04#8)).seq = .cmd .iCmd8 (.tx 0) ∧
    (reply 7 0x04#8).ok (issuing .iCmd8 (reply 7 0x04#8)).params.respPollLimit ∧
    (issuing .iCmd8 (reply 7 0x04#8)).answers = (reply 7 0x04#8).answers ++ [.fault] := issuing_meets _ _ (by decide)
theorem test_witness_Cmd55IgnoresItsResponse :
    (issuing .iCmd55 (reply 7 0x05#8)).seq = .cmd .iCmd55 (.tx 0) ∧
    (reply 7 0x05#8).ok (issuing .iCmd55 (reply 7 0x05#8)).params.respPollLimit ∧
    (issuing .iCmd55 (reply 7 0x05#8)).answers = (reply 7 0x05#8).answers ++ [.fault] := issuing_meets _ _ (by decide)
theorem test_witness_Acmd41EndsThePollAtReady :
    (issuing .iAcmd41 (reply 7 0x00#8)).seq = .cmd .iAcmd41 (.tx 0) ∧
    (issuing .iAcmd41 (reply 7 0x00#8)).cntPoll = .written 1 ∧
    (reply 7 0x00#8).ok (issuing .iAcmd41 (reply 7 0x00#8)).params.respPollLimit ∧
    (issuing .iAcmd41 (reply 7 0x00#8)).answers = (reply 7 0x00#8).answers ++ [.fault] :=
  ⟨rfl, rfl, reply_ok (by decide) (by decide), rfl⟩
theorem test_witness_Cmd58AndCmd16NeedZero :
    ((issuing .iCmd58 (reply 7 0x00#8)).seq = .cmd .iCmd58 (.tx 0) ∧
      (reply 7 0x00#8).ok (issuing .iCmd58 (reply 7 0x00#8)).params.respPollLimit ∧
      (issuing .iCmd58 (reply 7 0x00#8)).answers = (reply 7 0x00#8).answers ++ [.fault]) ∧
    (issuing .iCmd16 (reply 7 0x05#8)).seq = .cmd .iCmd16 (.tx 0) ∧
    (reply 7 0x05#8).ok (issuing .iCmd16 (reply 7 0x05#8)).params.respPollLimit ∧
    (issuing .iCmd16 (reply 7 0x05#8)).answers = (reply 7 0x05#8).answers ++ [.fault] :=
  ⟨issuing_meets _ _ (by decide), issuing_meets _ _ (by decide)⟩
theorem test_witness_Cmd17AndCmd24NeedZero :
    ((issuing (.rbCmd17 5#32) (reply 7 0x00#8)).seq = .cmd (.rbCmd17 5#32) (.tx 0) ∧
      (reply 7 0x00#8).ok (issuing (.rbCmd17 5#32) (reply 7 0x00#8)).params.respPollLimit ∧
      (issuing (.rbCmd17 5#32) (reply 7 0x00#8)).answers = (reply 7 0x00#8).answers ++ [.fault]) ∧
    (issuing (.wbCmd24 8#32) (reply 7 0x01#8)).seq = .cmd (.wbCmd24 8#32) (.tx 0) ∧
    (reply 7 0x01#8).ok (issuing (.wbCmd24 8#32) (reply 7 0x01#8)).params.respPollLimit ∧
    (issuing (.wbCmd24 8#32) (reply 7 0x01#8)).answers = (reply 7 0x01#8).answers ++ [.fault] :=
  ⟨issuing_meets _ _ (by decide), issuing_meets _ _ (by decide)⟩
theorem test_witness_UnansweredWireCommandEndsItsOperation :
    ∃ s : State, IssuedAs .iCmd0 .cmd0 .init .sCmd0 ∧ s.seq = .cmd .iCmd0 (.tx 0) ∧ (times 6 0x00#8).length = 6 ∧
      1 ≤ s.params.respPollLimit ∧ s.answers = silence (times 6 0x00#8) s.params.respPollLimit ++ [] :=
  ⟨{ State.reset with seq := .cmd .iCmd0 (.tx 0), answers := silence (times 6 0x00#8) 8 ++ [] }, .cmd0, rfl, rfl, by decide, rfl⟩
/-- The last exchange before a timeout faults, and the first of a frame. -/
theorem test_witness_WireCommandFaultEndsItsOperation :
    (∃ s : State, IssuedAs .iCmd0 .cmd0 .init .sCmd0 ∧ s.seq = .cmd .iCmd0 (.tx 0) ∧
      (times 13 0xFF#8).length < 6 + s.params.respPollLimit ∧ (∀ b ∈ (times 13 0xFF#8).drop 6, b = 0xFF#8) ∧
      s.answers = bytesAnswered (times 13 0xFF#8) ++ .fault :: []) ∧
    (∃ s : State, IssuedAs (.wbCmd24 8#32) (.cmd24 8#32) .writeBlock .sCmd24 ∧ s.seq = .cmd (.wbCmd24 8#32) (.tx 0) ∧
      ([] : List Byte).length < 6 + s.params.respPollLimit ∧ s.answers = bytesAnswered [] ++ .fault :: []) :=
  ⟨⟨{ State.reset with seq := .cmd .iCmd0 (.tx 0), answers := bytesAnswered (times 13 0xFF#8) ++ .fault :: [] },
      .cmd0, rfl, by decide, by decide, rfl⟩,
    ⟨{ State.reset with seq := .cmd (.wbCmd24 8#32) (.tx 0), answers := [.fault] }, .cmd24 8#32, rfl, by decide, rfl⟩⟩
theorem test_witness_WireCommandsRunOnlyWhereIssued :
    Issuer.iCmd58.wireCommand = some .cmd58 ∧ State.reset.seq ≠ .cmd .iCmd58 (.tx 0) := by decide
/-- INIT's first dummy exchange faults. -/
theorem test_witness_TransportFaultEndsTheOperation :
    BlockInv (runFor 1 (initBegun [.fault])) ∧ (runFor 1 (initBegun [.fault])).seq.operation = some .init ∧
    (runFor 1 (initBegun [.fault])).seq.exchangeTag = some .sPowerup ∧ (runFor 1 (initBegun [.fault])).nextAnswer = .fault :=
  ⟨initBegun_run_inv _ _, by decide +kernel, by decide +kernel, by decide +kernel⟩

/-! ### INIT -/

/-- A high-capacity card ready at the second iteration (program P1), and a legacy card (V-INIT-7). -/
def highCard : InitScript where
  dummy := times 10 0xFF#8
  cmd0 := reply 1 0x01#8
  cmd8 := reply 0 0x01#8
  tail := [0x00#8, 0x00#8, 0x01#8, 0xAA#8]
  notReady := [{ cmd55 := reply 0 0x01#8, acmd41 := reply 0 0x01#8 }]
  last := { cmd55 := reply 0 0x01#8, acmd41 := reply 0 0x00#8 }
  cmd58 := reply 0 0x00#8
  ocr := [0xC0#8, 0xFF#8, 0x80#8, 0x00#8]
  cmd16 := reply 0 0x00#8

def legacyCard : InitScript := { highCard with cmd8 := reply 0 0x05#8, tail := [], notReady := [] }

theorem highCard_ok : highCard.ok Params.default where
  dummy := rfl
  cmd0 := reply_ok (by decide) (by decide)
  cmd0R1 := rfl
  cmd8 := reply_ok (by decide) (by decide)
  tail := ⟨0x00#8, 0x00#8, rfl⟩
  notReady := by
    intro q hq
    obtain rfl : q = { cmd55 := reply 0 0x01#8, acmd41 := reply 0 0x01#8 } := by simpa [highCard] using hq
    exact ⟨⟨reply_ok (by decide) (by decide), reply_ok (by decide) (by decide)⟩, by decide⟩
  iterations := by decide
  last := ⟨reply_ok (by decide) (by decide), reply_ok (by decide) (by decide)⟩
  lastR1 := rfl
  cmd58 := reply_ok (by decide) (by decide)
  cmd58R1 := rfl
  ocr := rfl
  cmd16 := fun _ => ⟨reply_ok (by decide) (by decide), rfl⟩

theorem legacyCard_ok : legacyCard.ok Params.default where
  dummy := rfl
  cmd0 := reply_ok (by decide) (by decide)
  cmd0R1 := rfl
  cmd8 := reply_ok (by decide) (by decide)
  tail := rfl
  notReady := by intro q hq; simp [legacyCard] at hq
  iterations := by decide
  last := ⟨reply_ok (by decide) (by decide), reply_ok (by decide) (by decide)⟩
  lastR1 := rfl
  cmd58 := reply_ok (by decide) (by decide)
  cmd58R1 := rfl
  ocr := rfl
  cmd16 := fun _ => ⟨reply_ok (by decide) (by decide), rfl⟩

/-- Both classes of card meet the hypotheses; P1 has 68 exchanges and the legacy card 57 (one more than V-INIT-19, CMD0 at r = 2). -/
theorem test_witness_InitEndsReadyOnAGoodCard :
    (∃ s : State, s.seq = .idle ∧ highCard.ok s.params ∧ s.answers = highCard.answers ++ []) ∧
    (∃ s : State, s.seq = .idle ∧ legacyCard.ok s.params ∧ s.answers = legacyCard.answers ++ []) ∧
    highCard.capacity = .high ∧ legacyCard.capacity = .standard ∧ highCard.count = 68 ∧ legacyCard.count = 57 :=
  ⟨⟨withCard (highCard.answers ++ []), rfl, highCard_ok, rfl⟩, ⟨withCard (legacyCard.answers ++ []), rfl, legacyCard_ok, rfl⟩,
    by decide, by decide, by decide, by decide⟩
theorem test_witness_InitAlwaysCompletes : State.reset.seq = .idle := by rfl

/-- A state at I_CMD8_TAIL(0), and one at I_OCR(0). -/
def tailReads (l : Seq) (bs : List Byte) : State :=
  { State.reset with csLevel := .low, legacy := .written false, seq := l, answers := bytesAnswered bs ++ [] }

/-- A good echo and a bad one. -/
theorem test_witness_BadEchoFailsInit :
    ((tailReads (.iCmd8Tail 0) [0#8, 0#8, 0x01#8, 0xAA#8]).seq = .iCmd8Tail 0 ∧
      (tailReads (.iCmd8Tail 0) [0#8, 0#8, 0x01#8, 0xAA#8]).answers = bytesAnswered [0#8, 0#8, 0x01#8, 0xAA#8] ++ []) ∧
    (tailReads (.iCmd8Tail 0) [0#8, 0#8, 0x01#8, 0xAB#8]).seq = .iCmd8Tail 0 ∧
    (tailReads (.iCmd8Tail 0) [0#8, 0#8, 0x01#8, 0xAB#8]).answers = bytesAnswered [0#8, 0#8, 0x01#8, 0xAB#8] ++ [] :=
  ⟨⟨rfl, rfl⟩, rfl, rfl⟩

/-- A poll of two iterations, neither ready. -/
def slowPolls : List PollReply := List.replicate 2 { cmd55 := reply 0 0x01#8, acmd41 := reply 7 0x01#8 }

def slowCard : State :=
  { State.reset with
    csLevel := .low, cntPoll := .written 1, seq := .cmd .iCmd55 (.tx 0), answers := slowPolls.flatMap PollReply.answers ++ []
    params := { Params.default with ocrPollLimit := 2 } }

theorem test_witness_InitPollFailsAfterExactlyItsLimit :
    slowCard.seq = .cmd .iCmd55 (.tx 0) ∧ slowCard.cntPoll = .written 1 ∧ slowCard.csLevel = .low ∧
    slowPolls.length = slowCard.params.ocrPollLimit ∧ 1 ≤ slowCard.params.ocrPollLimit ∧
    (∀ q ∈ slowPolls, q.ok slowCard.params.respPollLimit ∧ q.acmd41.r1 ≠ 0x00#8) ∧
    slowCard.answers = slowPolls.flatMap PollReply.answers ++ [] := by
  refine ⟨rfl, rfl, rfl, rfl, by decide, ?_, rfl⟩
  intro q hq
  obtain rfl : q = { cmd55 := reply 0 0x01#8, acmd41 := reply 7 0x01#8 } := by simpa [slowPolls] using hq
  exact ⟨⟨reply_ok (by decide) (by decide), reply_ok (by decide) (by decide)⟩, by decide⟩

theorem test_witness_OcrAndLegacyDecideTheCapacity :
    (tailReads (.iOcr 0) [0x40#8, 0#8, 0#8, 0#8]).seq = .iOcr 0 ∧
    (tailReads (.iOcr 0) [0x40#8, 0#8, 0#8, 0#8]).legacy = .written false ∧
    (tailReads (.iOcr 0) [0x40#8, 0#8, 0#8, 0#8]).answers = bytesAnswered [0x40#8, 0#8, 0#8, 0#8] ++ [] := ⟨rfl, rfl, rfl⟩
theorem test_witness_InitDependsOnTheCardAlone :
    (withCard [.fault]).seq = .idle ∧ (readyState [.fault]).seq = .idle ∧
    (withCard [.fault]).answers = (readyState [.fault]).answers ∧ (withCard [.fault]).draws = (readyState [.fault]).draws ∧
    (withCard [.fault]).params = (readyState [.fault]).params ∧ (withCard [.fault]).cap ≠ (readyState [.fault]).cap :=
  ⟨rfl, rfl, rfl, rfl, rfl, by decide⟩
theorem test_witness_InitKeepsTheCardSelected : (readyState []).seq = .idle := by rfl

/-! ### Block transfers -/

/-- The largest standard-capacity index and the first that overflows; and a block before any INIT. -/
theorem test_witness_WireAddressIsIndexOrByteOffset :
    (0x007FFFFF#32 : Word32).toNat < 2 ^ 23 ∧ 2 ^ 23 ≤ (0x00800000#32 : Word32).toNat ∧
    BlockInv freshState ∧ freshState.seq = .idle ∧ freshState.cap = .undefined :=
  ⟨by decide, by decide, freshState_inv, rfl, rfl⟩
theorem test_witness_WireAddressIsIndexOrByteOffset_transfers :
    (readyState []).seq = .idle ∧ (readyState []).initState = .ready ∧ (times 512 0xA5#8).length = 512 ∧
    wireAddress (readyState []).cap 0xFFFFFFFF#32 = .ok 0xFFFFFFFF#32 := ⟨rfl, rfl, List.length_replicate, rfl⟩

/-- V-RD-5: a card that sends two other bytes before the data token. -/
def readCard : ReadScript where
  cmd17 := reply 0 0x00#8
  skipped := [0x01#8, 0x0F#8]
  data := times 512 0xFE#8
  crc := [0x12#8, 0x34#8]

theorem readCard_ok : readCard.ok Params.default where
  cmd17 := reply_ok (by decide) (by decide)
  cmd17R1 := rfl
  skipped := by decide
  polls := by decide
  data := List.length_replicate
  crc := rfl

theorem test_witness_ReadBlockReturnsThePayload :
    ∃ s : State, s.seq = .idle ∧ s.initState = .ready ∧ wireAddress s.cap 5#32 = .ok 5#32 ∧ s.buf.wf = true ∧
      readCard.ok s.params ∧ s.answers = readCard.answers ++ [] :=
  ⟨readyState (readCard.answers ++ []), rfl, rfl, rfl, rfl, readCard_ok, rfl⟩
theorem test_witness_ReadBlockAlwaysCompletes :
    (readyState []).seq = .idle ∧ (readyState []).initState = .ready ∧ wireAddress (readyState []).cap 5#32 = .ok 5#32 ∧
    (readyState []).buf.wf = true := ⟨rfl, rfl, rfl, rfl⟩
/-- Two bytes and then a fault; the whole payload is the other boundary. -/
theorem test_witness_ReadDataFillsBufInOrder :
    (∃ s : State, s.seq = .rbData 0 ∧ ([0x11#8, 0x22#8] : List Byte).length ≤ 512 ∧
      s.answers = bytesAnswered [0x11#8, 0x22#8] ++ [.fault] ∧ ([0x11#8, 0x22#8] : List Byte).length < 512 ∧
      ∃ more, [Answer.fault] = .fault :: more) ∧
    (∃ s : State, s.seq = .rbData 0 ∧ (times 512 0xFE#8).length ≤ 512 ∧ s.answers = bytesAnswered (times 512 0xFE#8) ++ []) :=
  ⟨⟨{ State.reset with seq := .rbData 0, answers := bytesAnswered [0x11#8, 0x22#8] ++ [.fault] }, rfl, by decide, rfl, by decide, [], rfl⟩,
    ⟨{ State.reset with seq := .rbData 0, answers := bytesAnswered (times 512 0xFE#8) ++ [] }, rfl,
      by simp only [times, List.length_replicate, Nat.le_refl], rfl⟩⟩
theorem test_witness_TokenPollFailsAfterItsLimit :
    ∃ s : State, s.seq = .rbToken ∧ s.cntToken = .written 1 ∧ ([0x01#8, 0xFF#8] : List Byte).length = s.params.tokenPollLimit ∧
      1 ≤ s.params.tokenPollLimit ∧ (∀ b ∈ ([0x01#8, 0xFF#8] : List Byte), b ≠ 0xFE#8) ∧
      s.answers = bytesAnswered [0x01#8, 0xFF#8] ++ [] :=
  ⟨{ State.reset with
      seq := .rbToken, cntToken := .written 1, answers := bytesAnswered [0x01#8, 0xFF#8] ++ []
      params := { Params.default with tokenPollLimit := 2 } }, rfl, rfl, rfl, by decide, by decide, rfl⟩
theorem test_witness_ValuelessResultFaults : Status.timeoutDataToken ≠ .ok := by decide

/-- A card that takes the whole packet of WRITE_BLOCK, its data response token and its busy bytes. -/
def writeCard (response : Byte) (busy : List Byte) : WriteScript where
  cmd24 := reply 0 0x00#8
  junk := times 515 0xFF#8
  response := response
  busy := busy

theorem writeCard_sent (response : Byte) (busy : List Byte) (p : Params) (hp : p.respPollLimit = 8) (hg : p.writeGapBytes = 0) :
    (writeCard response busy).sent p (times 512 0xA5#8) where
  cmd24 := reply_ok (by omega) (by decide)
  cmd24R1 := rfl
  junk := by
    simp only [writeCard, packetBytes, times, hg, List.length_append, List.length_replicate, List.length_cons, List.length_nil]

theorem test_witness_WriteBlockSendsTheBlock :
    ∃ s : State, s.seq = .idle ∧ s.initState = .ready ∧ wireAddress s.cap 8#32 = .ok 8#32 ∧ (times 512 0xA5#8).length = 512 ∧
      (writeCard 0xE5#8 [0x00#8, 0x00#8, 0xFF#8]).accepted s.params (times 512 0xA5#8) ∧
      s.answers = (writeCard 0xE5#8 [0x00#8, 0x00#8, 0xFF#8]).answers ++ [] :=
  ⟨readyState ((writeCard 0xE5#8 [0x00#8, 0x00#8, 0xFF#8]).answers ++ []), rfl, rfl, rfl, List.length_replicate,
    { sent := writeCard_sent _ _ _ rfl rfl, response := by decide, busy := ⟨[0x00#8, 0x00#8], rfl, by decide, by decide⟩ }, rfl⟩
theorem test_witness_BusyCardIsASoftCondition :
    ∃ s : State, s.seq = .idle ∧ s.initState = .ready ∧ wireAddress s.cap 8#32 = .ok 8#32 ∧ (times 512 0xA5#8).length = 512 ∧
      1 ≤ s.params.busyPollLimit ∧ (writeCard 0x05#8 [0x00#8, 0x00#8]).staysBusy s.params (times 512 0xA5#8) ∧
      s.answers = (writeCard 0x05#8 [0x00#8, 0x00#8]).answers ++ [] :=
  ⟨{ readyState ((writeCard 0x05#8 [0x00#8, 0x00#8]).answers ++ []) with params := { Params.default with busyPollLimit := 2 } },
    rfl, rfl, rfl, List.length_replicate, by decide,
    { sent := writeCard_sent _ _ _ rfl rfl, response := by decide, busy := ⟨by decide, rfl⟩ }, rfl⟩
theorem test_witness_RejectedWriteDeselectsAtOnce :
    ∃ s : State, s.seq = .idle ∧ s.initState = .ready ∧ wireAddress s.cap 8#32 = .ok 8#32 ∧ (times 512 0xA5#8).length = 512 ∧
      (writeCard 0x0D#8 []).rejected s.params (times 512 0xA5#8) ∧ s.answers = (writeCard 0x0D#8 []).answers ++ [] :=
  ⟨readyState ((writeCard 0x0D#8 []).answers ++ []), rfl, rfl, rfl, List.length_replicate,
    { sent := writeCard_sent _ _ _ rfl rfl, response := by decide, busy := rfl }, rfl⟩

/-- A state at WB_BUSY(1) with a limit of 2. -/
def busyPoll (bs : List Byte) : State :=
  { State.reset with
    csLevel := .low, seq := .wbBusy, cntBusy := .written 1, answers := bytesAnswered bs ++ []
    params := { Params.default with busyPollLimit := 2 } }

/-- The poll that ends at its last read, and the one that runs out. -/
theorem test_witness_BusyWaitEndsWithStatusZero :
    ((busyPoll ([0x00#8] ++ [0xFF#8])).seq = .wbBusy ∧ (busyPoll ([0x00#8] ++ [0xFF#8])).cntBusy = .written 1 ∧
      (∀ b ∈ ([0x00#8] : List Byte), b ≠ 0xFF#8) ∧
      ([0x00#8] : List Byte).length < (busyPoll ([0x00#8] ++ [0xFF#8])).params.busyPollLimit ∧
      (busyPoll ([0x00#8] ++ [0xFF#8])).answers = bytesAnswered ([0x00#8] ++ [0xFF#8]) ++ []) ∧
    (busyPoll [0x00#8, 0x01#8]).seq = .wbBusy ∧ (busyPoll [0x00#8, 0x01#8]).cntBusy = .written 1 ∧
    (∀ b ∈ ([0x00#8, 0x01#8] : List Byte), b ≠ 0xFF#8) ∧
    ([0x00#8, 0x01#8] : List Byte).length = (busyPoll [0x00#8, 0x01#8]).params.busyPollLimit ∧
    1 ≤ (busyPoll [0x00#8, 0x01#8]).params.busyPollLimit ∧
    (busyPoll [0x00#8, 0x01#8]).answers = bytesAnswered [0x00#8, 0x01#8] ++ [] :=
  ⟨⟨rfl, rfl, by decide, by decide, rfl⟩, rfl, rfl, by decide, rfl, by decide, rfl⟩
theorem test_witness_WriteBlockAlwaysCompletes :
    (readyState []).seq = .idle ∧ (readyState []).initState = .ready ∧ wireAddress (readyState []).cap 8#32 = .ok 8#32 ∧
    (times 512 0xA5#8).length = 512 := ⟨rfl, rfl, rfl, List.length_replicate⟩
/-- A read that fails at CMD17 is a next state too. -/
theorem test_witness_BlockTransfersKeepTheCardSelected :
    (readyState (bytesAnswered (r1Answer 0x05#8))).seq = .idle ∧ (readyState (bytesAnswered (r1Answer 0x05#8))).buf.wf = true ∧
    ∃ t, exec (.readBlock 5#32) (readyState (bytesAnswered (r1Answer 0x05#8))) = .next t := ⟨rfl, rfl, _, rfl⟩

/-! ### Refusals and the machine -/

/-- Each clause: not Ready, an index that overflows, and 511 bytes. -/
theorem test_witness_BlockTransfersAreRefused :
    (State.reset.seq = .idle ∧ State.reset.initState ≠ .ready) ∧
    (∃ s : State, s.seq = .idle ∧ s.initState = .ready ∧ s.cap = .standard ∧ 2 ^ 23 ≤ (0x00800000#32 : Word32).toNat) ∧
    (times 511 0#8).length ≠ 512 :=
  ⟨⟨rfl, by decide⟩, ⟨{ readyState [] with cap := .standard }, rfl, rfl, rfl, by decide⟩, by decide +kernel⟩
theorem test_witness_RequestsWhileRunningAreBusy : (initBegun []).seq ≠ .idle := by decide
/-- A step of a running INIT, and one of an IDLE block. -/
theorem test_witness_StepKeepsTheInvariant :
    (BlockInv (initBegun []) ∧ step (initBegun []) = .next (tick (initBegun []))) ∧
    BlockInv freshState ∧ step freshState = .next freshState := ⟨⟨initBegun_inv _, rfl⟩, freshState_inv, rfl⟩
theorem test_witness_NoStepFaultsUnderTheInvariant : BlockInv (readyState []) := readyState_inv _
theorem test_witness_EveryOperationEnds : BlockInv (initBegun []) ∧ (initBegun []).seq.running = true := ⟨initBegun_inv _, rfl⟩
theorem test_witness_StepsOfAnOperationReachItsMeaning : BlockInv (initBegun []) ∧ (initBegun []).seq.running = true :=
  ⟨initBegun_inv _, rfl⟩
theorem test_witness_StepRunsTheDecodedRequest :
    ∃ s : State, s.seq = .idle ∧ s.requests = [0x04#8, 0#8, 0#8, 0#8, 5#8] :: [] ∧
      decode (.request [0x04#8, 0#8, 0#8, 0#8, 5#8]) = .ok (.readBlock 5#32) :=
  ⟨{ readyState [] with requests := [[0x04#8, 0#8, 0#8, 0#8, 5#8]] }, rfl, rfl, rfl⟩
/-- Each clause: at CMD0's first byte, at I_DESEL, and an IDLE block without a request. -/
theorem test_witness_StepFollowsTheSequencer :
    (Issuer.iCmd0.wireCommand = some .cmd0 ∧ (issuing .iCmd0 (reply 0 0x01#8)).seq = .cmd .iCmd0 (.tx 0)) ∧
    ((initBegun []).seq.running = true ∧ ∀ c i, Issuer.wireCommand c = some i → (initBegun []).seq ≠ .cmd c (.tx 0)) ∧
    State.reset.seq = .idle ∧ State.reset.requests = [] :=
  ⟨⟨rfl, rfl⟩, ⟨rfl, fun c i _ h => by simp [initBegun, initEntry, State.goto] at h⟩, rfl, rfl⟩
theorem test_witness_HistoryOnlyGrows : ∃ t, step (initBegun []) = .next t := ⟨_, rfl⟩
/-- The last expressible index, and one past it. -/
theorem test_witness_ReadAndWriteExpandToConsecutiveBlocks :
    (0xFFFFFFFF#32 : Word32).toNat + 1 ≤ 2 ^ 32 ∧ 2 ^ 32 < (0xFFFFFFFF#32 : Word32).toNat + 2 ∧
    ([times 512 0#8] : List (List Byte)).length = 1 ∧ ([times 512 0#8] : List (List Byte))[0]? = some (times 512 0#8) :=
  ⟨by decide, by decide, rfl, rfl⟩

end Sys2Proof.Tests
end

/-!
PROOFS, family 30_encoding: the bytes of a loaded frame (O5), and a command whose exchange faults (O23). The states a command passes
through while it has no response are named once, `commandAt`, with what the sequencer's step does there.
-/

/-! ## The bytes of a command frame -/

namespace Sys2Proof.Proofs

open Sys2Proof Sys2Proof.Machine

/-- Settles O5: the fields of `frameOf`, which is what `loadFrame` loads for every issuer. -/
theorem frameBytesFollowTheFormat : Obligations.FrameBytesFollowTheFormat := by
  intro s c
  have hlt := c.arg.isLt
  have hbyte (i : Nat) : (c.arg.extractLsb' i 8).toNat = c.arg.toNat / 2 ^ i % 2 ^ 8 := by
    rw [BitVec.extractLsb'_toNat, Nat.shiftRight_eq_div_pow]
  exact ⟨frameOf c.index c.arg, loadFrame_frame c s, (hbyte 24).trans (by omega), hbyte 16, hbyte 8,
    (hbyte 0).trans (by omega), crcStopByte_toNat _⟩

end Sys2Proof.Proofs

/-! ## A command that has no response yet -/

namespace Sys2Proof.Machine

/-- The bytes a command can send, in order: its frame, then a filler for each read of the response poll (R80). -/
def commandBytes (c : Issuer) (limit : Nat) : List Byte :=
  frameBytes c.index c.arg ++ List.replicate limit filler

/-- The framer's position after n exchanges of a command without a response (R31). -/
def framerAt (n : Nat) : Framer := if h : n < 6 then .tx ⟨n, h⟩ else .rx

/-- The state of a command that started in s, with FRAME loaded, after exchanges that received these bytes and gave no response; `rest`
are the answers still to come. -/
def commandAt (c : Issuer) (received : List Byte) (rest : List Answer) (s : State) : State :=
  { s with
    frame := .written (frameOf c.index c.arg)
    crc := .written (frameCrc c.index c.arg)
    cntResp := if received.length < 6 then s.cntResp else .written (received.length - 5)
    seq := .cmd c (framerAt received.length)
    answers := rest
    history := (List.zipWith (fun out b => .xfer s.csLevel out b) (commandBytes c s.params.respPollLimit) received).reverse ++
      s.history }

/-- The received bytes leave the command without a response, and with an exchange still to make: whatever came while the frame went
out (R95), every read of the poll returned NOT_READY, and none of them was the last read (R83, R84). -/
def unanswered (limit : Nat) (received : List Byte) : Prop :=
  received.length ≤ 6 + (limit - 1) ∧ ∀ b ∈ received.drop 6, b = notReadyByte

theorem unanswered_of_append {limit : Nat} {bs more : List Byte} (h : unanswered limit (bs ++ more)) : unanswered limit bs := by
  obtain ⟨hlen, hpoll⟩ := h
  rw [List.length_append] at hlen
  refine ⟨by omega, fun b hb => hpoll b ?_⟩
  rw [List.drop_append]
  exact List.mem_append_left _ hb

/-- What comes in the poll of an unanswered command is NOT_READY. -/
theorem unanswered_poll {limit : Nat} {bs : List Byte} {b : Byte} (h : unanswered limit (bs ++ [b])) (hn : 6 ≤ bs.length) :
    b = notReadyByte :=
  h.2 b (by simp [List.drop_append_of_le_length hn])

theorem commandBytes_frame (c : Issuer) (limit : Nat) (k : Fin 6) :
    (commandBytes c limit)[k.val]? = some ((frameOf c.index c.arg).byte k) := by
  rw [frameOf_byte, commandBytes, List.getElem?_append_left k.isLt]

theorem commandBytes_poll (c : Issuer) {limit n : Nat} (h6 : 6 ≤ n) (hn : n < 6 + limit) :
    (commandBytes c limit)[n]? = some filler := by
  rw [commandBytes, List.getElem?_append_right h6, frameBytes_length, List.getElem?_replicate_of_lt (by omega)]

theorem framerAt_tx (k : Fin 6) : framerAt k.val = .tx k := dif_pos k.isLt
theorem framerAt_rx {n : Nat} (h : 6 ≤ n) : framerAt n = .rx := dif_neg (by omega)

/-- One more pair at the end of a zip, where the first list still has an element. -/
theorem zipWith_concat {α β γ : Type} (f : α → β → γ) {l : List α} {bs : List β} {a : α} (b : β) (h : l[bs.length]? = some a) :
    List.zipWith f l (bs ++ [b]) = List.zipWith f l bs ++ [f a b] := by
  induction bs generalizing l with
  | nil =>
    obtain ⟨xs, rfl⟩ := List.head?_eq_some_iff.mp (List.head?_eq_getElem? ▸ h)
    simp
  | cons x xs ih =>
    cases l with
    | nil => simp at h
    | cons y ys => simp [ih (l := ys) (by simpa using h)]

/-- An exchange whose answer is a listed byte: the answer taken, Xfer appended (R41). -/
theorem xfer_of_byte {s : State} {b : Byte} {rest : List Answer} (out : Byte) (h : s.answers = .byte b :: rest) :
    xfer out s = { s with answers := rest, history := .xfer s.csLevel out b :: s.history } := by
  simp [xfer, State.takeAnswer, State.nextAnswer, State.log, xferEvent, h]

/-- An exchange whose answer is a listed fault: the answer taken, XferFault appended (R41). -/
theorem xfer_of_fault {s : State} {rest : List Answer} (out : Byte) (h : s.answers = .fault :: rest) :
    xfer out s = { s with answers := rest, history := .xferFault s.csLevel out :: s.history } := by
  simp [xfer, State.takeAnswer, State.nextAnswer, State.log, xferEvent, h]

/-- The step of a command in its frame: FRAME[k] goes out, and the next position follows (R80, R82). -/
theorem tick_commandAt_tx (c : Issuer) {received : List Byte} (rest : List Answer) (s : State) (k : Fin 6)
    (hk : received.length = k.val) :
    tick (commandAt c received rest s) = exchange c.operation c.tag ((frameOf c.index c.arg).byte k)
      (fun _ s' => if h : k.val + 1 < 6 then s'.goto (.cmd c (.tx ⟨k.val + 1, h⟩))
        else { s' with cntResp := .written 1 }.goto (.cmd c .rx)) (commandAt c received rest s) := by
  have hseq : (commandAt c received rest s).seq = .cmd c (.tx k) := by simp [commandAt, hk, framerAt_tx]
  have hload : loadFrame c (commandAt c received rest s) = commandAt c received rest s := rfl
  rw [tick_tx hseq, framerTx, hload, ite_self, framerSend]
  rfl

/-- The step of a command in its response poll: one filler read (R83, R84). -/
theorem tick_commandAt_rx (c : Issuer) {received : List Byte} (rest : List Answer) (s : State) (h6 : 6 ≤ received.length) :
    tick (commandAt c received rest s) = exchange c.operation c.tag filler
      (fun b s' =>
        if isResponse b then afterResponse c b { s' with r1 := .written b }
        else if received.length - 5 < s'.params.respPollLimit then
          { s' with cntResp := .written (received.length - 5 + 1) }
        else raise c.operation c.timeoutStatus c.tag s') (commandAt c received rest s) := by
  have hseq : (commandAt c received rest s).seq = .cmd c .rx := by simp [commandAt, framerAt_rx h6]
  have hcnt : (commandAt c received rest s).cntResp = .written (received.length - 5) := if_neg (by omega)
  rw [tick_rx hseq, framerRx, State.readCntResp, hcnt, readRegister_written, withRead_ok]

/-- What the next exchange of a command sends, at any of its positions. -/
theorem tick_commandAt (c : Issuer) {received : List Byte} (rest : List Answer) (s : State)
    (h : received.length < 6 + s.params.respPollLimit) :
    ∃ out use, (commandBytes c s.params.respPollLimit)[received.length]? = some out ∧
      tick (commandAt c received rest s) = exchange c.operation c.tag out use (commandAt c received rest s) := by
  by_cases h6 : received.length < 6
  · exact ⟨_, _, commandBytes_frame c _ ⟨received.length, h6⟩, tick_commandAt_tx c rest s ⟨received.length, h6⟩ rfl⟩
  · exact ⟨_, _, commandBytes_poll c (by omega) h, tick_commandAt_rx c rest s (by omega)⟩

/-- An exchange that answers with a byte, and leaves the command unanswered, brings it to its next position. -/
theorem tick_commandAt_byte (c : Issuer) {received : List Byte} {b : Byte} (rest : List Answer) (s : State)
    (h : unanswered s.params.respPollLimit (received ++ [b])) :
    tick (commandAt c received (.byte b :: rest) s) = commandAt c (received ++ [b]) rest s := by
  have hnext : (commandAt c received (.byte b :: rest) s).nextAnswer = .byte b := rfl
  have hxfer := fun out => xfer_of_byte (s := commandAt c received (.byte b :: rest) s) out rfl
  by_cases hframe : received.length < 6
  · have hout := commandBytes_frame c s.params.respPollLimit ⟨received.length, hframe⟩
    rw [tick_commandAt_tx c _ s ⟨received.length, hframe⟩ rfl, exchange_byte hnext, hxfer]
    by_cases h5 : received.length + 1 < 6
    · simp [commandAt, State.goto, framerAt, zipWith_concat _ b hout, hframe, h5]
    · have hn : received.length = 5 := by omega
      simp [commandAt, State.goto, framerAt, zipWith_concat _ b hout, hn]
  · have h6 : 6 ≤ received.length := by omega
    obtain rfl : b = notReadyByte := unanswered_poll h h6
    obtain ⟨hlen, -⟩ := h
    rw [List.length_append, List.length_singleton] at hlen
    have hmore : received.length - 5 < s.params.respPollLimit := by omega
    have hout := commandBytes_poll c (limit := s.params.respPollLimit) h6 (by omega)
    have hresp : isResponse notReadyByte = false := by decide
    rw [tick_commandAt_rx c _ s h6, exchange_byte hnext, hxfer, hresp, if_neg Bool.false_ne_true]
    have hcount : received.length - 5 + 1 = received.length + 1 - 5 := by omega
    have hpast : ¬ received.length + 1 < 6 := by omega
    simp [commandAt, framerAt_rx h6, framerAt_rx (Nat.le_succ_of_le h6), zipWith_concat _ _ hout, hmore, hcount, hpast]

/-- An exchange that faults ends the operation there (R12, R135). -/
theorem tick_commandAt_fault (c : Issuer) {received : List Byte} (rest : List Answer) (s : State)
    (h : received.length < 6 + s.params.respPollLimit) :
    ∃ out, (commandBytes c s.params.respPollLimit)[received.length]? = some out ∧
      tick (commandAt c received (.fault :: rest) s) =
        raise c.operation .transportFailure c.tag (xfer out (commandAt c received (.fault :: rest) s)) := by
  obtain ⟨out, use, hout, htick⟩ := tick_commandAt c (.fault :: rest) s h
  exact ⟨out, hout, htick.trans (exchange_fault rfl)⟩

/-! ## Running a command -/

theorem commandAt_inCommand (c : Issuer) (received : List Byte) (rest : List Answer) (s : State) :
    (commandAt c received rest s).seq.inCommand c = true := by
  simp [commandAt, Seq.inCommand]

theorem runCommandFor_inside {c : Issuer} {s : State} (n : Nat) (h : s.seq.inCommand c = true) :
    runCommandFor c (n + 1) s = runCommandFor c n (tick s) := by
  simp [runCommandFor, h]

theorem runCommandFor_left {c : Issuer} {s : State} (n : Nat) (h : s.seq.inCommand c = false) : runCommandFor c n s = s := by
  cases n <;> simp [runCommandFor, h]

/-- The first step of a command is the step of the state with FRAME loaded (R80). -/
theorem tick_commandStart {c : Issuer} {s : State} (h : s.seq = .cmd c (.tx 0)) :
    tick s = tick (commandAt c [] s.answers s) := by
  have hstart : commandAt c [] s.answers s = loadFrame c s := by
    simp [commandAt, loadFrame, framerAt, ← h]
  rw [hstart, tick_tx h, tick_tx (by simpa using h)]
  rfl

/-- A command runs through all the bytes that leave it unanswered. -/
theorem runCommandFor_commandAt (c : Issuer) (received more : List Byte) (rest : List Answer) (s : State) (n : Nat)
    (h : unanswered s.params.respPollLimit (received ++ more)) :
    runCommandFor c (more.length + n) (commandAt c received (bytesAnswered more ++ rest) s) =
      runCommandFor c n (commandAt c (received ++ more) rest s) := by
  induction more generalizing received with
  | nil => simp [bytesAnswered]
  | cons b more ih =>
    rw [List.append_cons] at h ⊢
    have hin := commandAt_inCommand c received (.byte b :: (bytesAnswered more ++ rest)) s
    calc runCommandFor c (more.length + 1 + n) (commandAt c received (.byte b :: (bytesAnswered more ++ rest)) s)
      _ = runCommandFor c (more.length + n) (tick (commandAt c received (.byte b :: (bytesAnswered more ++ rest)) s)) := by
        rw [Nat.add_right_comm, runCommandFor_inside _ hin]
      _ = runCommandFor c (more.length + n) (commandAt c (received ++ [b]) (bytesAnswered more ++ rest) s) := by
        rw [tick_commandAt_byte c _ s (unanswered_of_append h)]
      _ = _ := ih (received ++ [b]) h

/-- A command run from its start, through the bytes that leave it unanswered, with a step still to go. -/
theorem runCommandFor_unanswered {c : Issuer} {received : List Byte} {rest : List Answer} {s : State} (n : Nat)
    (hseq : s.seq = .cmd c (.tx 0)) (h : unanswered s.params.respPollLimit received)
    (hans : s.answers = bytesAnswered received ++ rest) :
    runCommandFor c (received.length + n + 1) s = runCommandFor c (n + 1) (commandAt c received rest s) := by
  have hin : s.seq.inCommand c = true := by simp [hseq, Seq.inCommand]
  rw [runCommandFor_inside _ hin, tick_commandStart hseq, ← runCommandFor_inside _ (commandAt_inCommand c _ _ s), hans,
    Nat.add_assoc]
  exact runCommandFor_commandAt c [] received rest s (n + 1) h

/-- A command whose exchange faults runs to the operation's end by the fault. -/
theorem runCommand_fault {c : Issuer} {received : List Byte} {rest : List Answer} {s : State}
    (hseq : s.seq = .cmd c (.tx 0)) (hlen : received.length < 6 + s.params.respPollLimit)
    (hpoll : ∀ b ∈ received.drop 6, b = notReadyByte) (hans : s.answers = bytesAnswered received ++ .fault :: rest) :
    ∃ out, (commandBytes c s.params.respPollLimit)[received.length]? = some out ∧
      runCommand c s = raise c.operation .transportFailure c.tag (xfer out (commandAt c received (.fault :: rest) s)) := by
  obtain ⟨out, hout, htick⟩ := tick_commandAt_fault c rest s hlen
  refine ⟨out, hout, ?_⟩
  have hbudget : commandBudget s.params = received.length + (6 + s.params.respPollLimit - received.length) + 1 := by
    simp only [commandBudget]; omega
  rw [runCommand, hbudget, runCommandFor_unanswered _ hseq ⟨by omega, hpoll⟩ hans,
    runCommandFor_inside _ (commandAt_inCommand c _ _ s), htick, runCommandFor_left _ (by simp [Seq.inCommand])]

/-! ## The wire command of an issuer -/

theorem issuedAs_operation {c : Issuer} {i : Instr} {op : Operation} {tag : StepTag} (h : IssuedAs c i op tag) :
    c.operation = op := by
  cases h <;> rfl

theorem issuedAs_tag {c : Issuer} {i : Instr} {op : Operation} {tag : StepTag} (h : IssuedAs c i op tag) : c.tag = tag := by
  cases h <;> rfl

/-- A wire command means the issue of its issuer's command (R58). -/
theorem exec_issuedAs {c : Issuer} {i : Instr} {op : Operation} {tag : StepTag} (h : IssuedAs c i op tag) (s : State) :
    exec i s = issue c s := by
  cases h <;> rfl

theorem issue_start {c : Issuer} {s : State} (h : s.seq = .cmd c (.tx 0)) : issue c s = .next (runCommand c s) := if_pos h

/-- Every operation that issues a wire command deselects when it ends by an error (R137). -/
theorem errorExit_deselects {c : Issuer} {i : Instr} {op : Operation} {tag : StepTag} (h : IssuedAs c i op tag) (s : State) :
    (errorExit op s).csLevel = .high ∧ (errorExit op s).history = .pin .high :: s.history := by
  cases h <;> exact ⟨rfl, rfl⟩

end Sys2Proof.Machine

namespace Sys2Proof.Proofs

open Sys2Proof Sys2Proof.Machine

/-- Settles O23: the bytes received before the fault leave the command unanswered, so it reaches the faulting exchange, and `raise`
ends its operation there. -/
theorem wireCommandFaultEndsItsOperation : Obligations.WireCommandFaultEndsItsOperation := by
  intro s c i op tag received rest hissued hseq hlen hpoll hans
  obtain ⟨out, hout, hrun⟩ := runCommand_fault hseq hlen hpoll hans
  rw [issuedAs_operation hissued, issuedAs_tag hissued] at hrun
  refine ⟨_, out, (exec_issuedAs hissued s).trans (issue_start hseq), ?_⟩
  obtain ⟨hcs, hhist⟩ := errorExit_deselects hissued (xfer out (commandAt c received (.fault :: rest) s))
  rw [hrun]
  refine ⟨raise_seq .., (raise_csLevel ..).trans hcs, raise_result .., by simp [commandAt], by simp [commandAt], hout, ?_⟩
  rw [raise_history, hhist, xfer_of_fault out rfl]
  rfl

end Sys2Proof.Proofs

namespace Sys2Proof.Machine

open Polynomial

/-! ## CRC-7 values as polynomials over the field of two elements -/

/-- In characteristic 2 a term chosen by the XOR of two bits is the sum of the terms chosen by each bit. -/
theorem ite_xor_eq_add (a b : Bool) (p : (ZMod 2)[X]) :
    (if (a ^^ b) = true then p else 0) = (if a = true then p else 0) + (if b = true then p else 0) := by
  cases a <;> cases b <;> simp [CharTwo.add_self_eq_zero]

@[simp] theorem crcPolynomial_zero : crcPolynomial 0#7 = 0 := by simp [crcPolynomial]

/-- XOR of register values is addition of their polynomials. -/
theorem crcPolynomial_xor (a b : CrcValue) : crcPolynomial (a ^^^ b) = crcPolynomial a + crcPolynomial b := by
  simp only [crcPolynomial, BitVec.getLsbD_xor, ite_xor_eq_add, List.sum_map_add]

/-- The bits 6 to 0 of a register value, one term each. -/
theorem crcPolynomial_eq_terms (c : CrcValue) : crcPolynomial c =
    (if c.getLsbD 0 then 1 else 0) + (if c.getLsbD 1 then X else 0) + (if c.getLsbD 2 then X ^ 2 else 0) +
    (if c.getLsbD 3 then X ^ 3 else 0) + (if c.getLsbD 4 then X ^ 4 else 0) + (if c.getLsbD 5 then X ^ 5 else 0) +
    (if c.getLsbD 6 then X ^ 6 else 0) := by
  simp [crcPolynomial, List.range_succ, add_assoc]

/-- Multiplication by x is the left shift of the register and the bit shifted out, at x^7. -/
theorem crcPolynomial_mul_X (c : CrcValue) :
    crcPolynomial c * X = crcPolynomial (c <<< 1) + (if c.getLsbD 6 = true then X ^ 7 else 0) := by
  simp [crcPolynomial_eq_terms, add_mul, ite_mul, ← pow_succ, ← pow_two]

/-- The generator's constant is the generator polynomial with its x^7 term dropped (R5, R76). -/
theorem crcPolynomial_crcPoly : crcPolynomial crcPoly + X ^ 7 = generatorPolynomial := by
  have hterms : crcPolynomial crcPoly = 1 + X ^ 3 := by simp [crcPolynomial_eq_terms, crcPoly]
  rw [hterms, generatorPolynomial]
  ring

/-! ## One step of the generator -/

/-- The step is the shift, and the constant XORed in when the bit shifted out and the input bit differ (R76). -/
theorem crcBit_eq_xor (crc : CrcValue) (d : Bool) :
    crcBit crc d = (crc <<< 1) ^^^ (if (crc.getLsbD 6 ^^ d) = true then crcPoly else 0#7) := by
  unfold crcBit
  split <;> simp

theorem crcBit_toNat (crc : CrcValue) (d : Bool) :
    (crcBit crc d).toNat = (2 * crc.toNat) % 128 ^^^ (if (crc.getLsbD 6 ^^ d) = true then 0x09 else 0) := by
  rw [crcBit_eq_xor, BitVec.toNat_xor, BitVec.toNat_shiftLeft, Nat.shiftLeft_eq, Nat.mul_comm, apply_ite BitVec.toNat]
  rfl

/-- The bit shifted out, by arithmetic on the register's value. -/
theorem crc_getLsbD_six (crc : CrcValue) : crc.getLsbD 6 = (crc.toNat / 64 % 2 == 1) := by
  rw [BitVec.getLsbD, Nat.testBit_eq_decide_div_mod_eq]
  rfl

/-- The step differs from multiplication by x, with the input bit at x^7, by the generator polynomial when the constant was XORed
in, and by nothing otherwise. -/
theorem crcPolynomial_crcBit_add (crc : CrcValue) (d : Bool) :
    crcPolynomial (crcBit crc d) + (crcPolynomial crc * X + (if d = true then X ^ 7 else 0)) =
      if (crc.getLsbD 6 ^^ d) = true then generatorPolynomial else 0 := by
  have hconst : crcPolynomial (if (crc.getLsbD 6 ^^ d) = true then crcPoly else 0#7) =
      if (crc.getLsbD 6 ^^ d) = true then crcPolynomial crcPoly else 0 := by
    rw [apply_ite crcPolynomial, crcPolynomial_zero]
  calc crcPolynomial (crcBit crc d) + (crcPolynomial crc * X + (if d = true then X ^ 7 else 0))
      = (crcPolynomial (crc <<< 1) + crcPolynomial (crc <<< 1)) +
          ((if (crc.getLsbD 6 ^^ d) = true then crcPolynomial crcPoly else 0) +
            ((if crc.getLsbD 6 = true then X ^ 7 else 0) + (if d = true then X ^ 7 else 0))) := by
        rw [crcBit_eq_xor, crcPolynomial_xor, crcPolynomial_mul_X, hconst]; ring
    _ = (if (crc.getLsbD 6 ^^ d) = true then crcPolynomial crcPoly else 0) +
          (if (crc.getLsbD 6 ^^ d) = true then X ^ 7 else 0) := by
        rw [CharTwo.add_self_eq_zero, zero_add, ← ite_xor_eq_add]
    _ = if (crc.getLsbD 6 ^^ d) = true then generatorPolynomial else 0 := by
        rw [← crcPolynomial_crcPoly]; split <;> simp

end Sys2Proof.Machine

namespace Sys2Proof.Proofs

open Sys2Proof Sys2Proof.Machine

/-- Settles O7: the formula is `crcBit_toNat`; and the step differs from multiplication by x by the generator polynomial or by
nothing. -/
theorem crcStepImplementsThePolynomial : Obligations.CrcStepImplementsThePolynomial := by
  intro crc d
  refine ⟨?_, ?_⟩
  · rw [crcBit_toNat, crc_getLsbD_six]
  · rw [crcPolynomial_crcBit_add]
    split
    · exact dvd_rfl
    · exact dvd_zero _

end Sys2Proof.Proofs

/-!
PROOFS, family 41_framer: the frame and the response poll. A run through the frame ends in `commandAt` with six bytes received; the
states of the poll are named once, `pollAt`, with what the sequencer's step does there.
-/

/-! ## The response poll -/

namespace Sys2Proof.Machine

/-- The state of a response poll that started in s, after n reads that all returned NOT_READY; `rest` are the answers still to come
(R83). -/
def pollAt (c : Issuer) (n : Nat) (rest : List Answer) (s : State) : State :=
  { s with
    cntResp := .written (n + 1)
    seq := .cmd c .rx
    answers := rest
    history := List.replicate n (.xfer s.csLevel filler notReadyByte) ++ s.history }

/-- The same state after one more read, which returned b, before the framer looks at b. -/
def pollRead (c : Issuer) (n : Nat) (b : Byte) (rest : List Answer) (s : State) : State :=
  { pollAt c n rest s with history := .xfer s.csLevel filler b :: (pollAt c n rest s).history }

theorem isResponse_eq_true {b : Byte} (h : b ≠ notReadyByte) : isResponse b = true := bne_iff_ne.mpr h

theorem isResponse_notReadyByte : isResponse notReadyByte = false := bne_self_eq_false _

theorem bytesAnswered_concat (bs : List Byte) (b : Byte) (rest : List Answer) :
    bytesAnswered (bs ++ [b]) ++ rest = bytesAnswered bs ++ .byte b :: rest := by
  simp [bytesAnswered]

/-- A response poll begins with CNT_RESP at 1. -/
theorem pollAt_start {c : Issuer} {s : State} (hseq : s.seq = .cmd c .rx) (hcnt : s.cntResp = .written 1) :
    pollAt c 0 s.answers s = s := by
  simp [pollAt, ← hseq, ← hcnt]

/-- What a step of the poll does with the byte it reads (R83, R84). -/
theorem tick_pollAt (c : Issuer) (n : Nat) (b : Byte) (rest : List Answer) (s : State) :
    tick (pollAt c n (.byte b :: rest) s) =
      if isResponse b then afterResponse c b { pollRead c n b rest s with r1 := .written b }
      else if n + 1 < s.params.respPollLimit then { pollRead c n b rest s with cntResp := .written (n + 1 + 1) }
      else raise c.operation c.timeoutStatus c.tag (pollRead c n b rest s) := by
  have hread : (pollAt c n (.byte b :: rest) s).readCntResp = .ok (n + 1) := rfl
  rw [tick_rx rfl, framerRx, hread, withRead_ok, exchange_byte rfl, xfer_of_byte filler rfl]
  rfl

/-- A read of NOT_READY before the last leads to the next read. -/
theorem tick_pollAt_notReady (c : Issuer) {n : Nat} (rest : List Answer) (s : State) (h : n + 1 < s.params.respPollLimit) :
    tick (pollAt c n (.byte notReadyByte :: rest) s) = pollAt c (n + 1) rest s := by
  rw [tick_pollAt, isResponse_notReadyByte, if_neg Bool.false_ne_true, if_pos h]
  rfl

/-- A read of NOT_READY that is the last one allowed is the timeout (R84). -/
theorem tick_pollAt_timeout (c : Issuer) {n : Nat} (rest : List Answer) (s : State) (h : s.params.respPollLimit = n + 1) :
    tick (pollAt c n (.byte notReadyByte :: rest) s) =
      raise c.operation c.timeoutStatus c.tag (pollRead c n notReadyByte rest s) := by
  rw [tick_pollAt, isResponse_notReadyByte, if_neg Bool.false_ne_true, if_neg (by omega)]

/-- Reads of NOT_READY within the limit keep the poll going. -/
theorem runFor_pollAt (c : Issuer) (n m : Nat) (rest : List Answer) (s : State) (h : n + m < s.params.respPollLimit) :
    runFor m (pollAt c n (List.replicate m (.byte notReadyByte) ++ rest) s) = pollAt c (n + m) rest s := by
  induction m generalizing n with
  | zero => rfl
  | succ m ih =>
    rw [List.replicate_succ, List.cons_append, runFor_running _ rfl, tick_pollAt_notReady c _ s (by omega), ih _ (by omega),
      Nat.add_right_comm, Nat.add_assoc]

/-- A poll from its start, through n reads of NOT_READY and the step after them. -/
theorem runFor_poll {c : Issuer} {n : Nat} {b : Byte} {rest : List Answer} {s : State} (hseq : s.seq = .cmd c .rx)
    (hcnt : s.cntResp = .written 1) (h : n < s.params.respPollLimit)
    (hans : s.answers = List.replicate n (.byte notReadyByte) ++ .byte b :: rest) :
    runFor (n + 1) s = tick (pollAt c n (.byte b :: rest) s) := by
  have hrun := runFor_pollAt c 0 n (.byte b :: rest) s (by omega)
  rw [← hans, pollAt_start hseq hcnt, Nat.zero_add] at hrun
  rw [runFor_add, hrun, runFor_running 0 rfl, runFor_zero]

/-- A poll in which every allowed read returns NOT_READY ends by the timeout. -/
theorem runFor_poll_timeout {c : Issuer} {n : Nat} {rest : List Answer} {s : State} (hseq : s.seq = .cmd c .rx)
    (hcnt : s.cntResp = .written 1) (hlimit : s.params.respPollLimit = n + 1)
    (hans : s.answers = List.replicate (n + 1) (.byte notReadyByte) ++ rest) :
    runFor (n + 1) s = raise c.operation c.timeoutStatus c.tag (pollRead c n notReadyByte rest s) := by
  rw [List.replicate_succ', List.append_assoc, List.singleton_append] at hans
  rw [runFor_poll hseq hcnt (by omega) hans, tick_pollAt_timeout c rest s hlimit]

/-! ## A silent card -/

/-- A response timeout is TimeoutResponse, except that INIT catches that of CMD0 (R80, R100). -/
theorem timeoutStatus_eq (c : Issuer) : c.timeoutStatus = if c = .iCmd0 then .initFailed else .timeoutResponse := by
  cases c <;> rfl

theorem exchangeTag_cmd (c : Issuer) (f : Framer) : (Seq.cmd c f).exchangeTag = some c.tag := by
  cases c <;> rfl

/-- The events of a command whose frame got the six bytes junk, and whose first n reads got NOT_READY. -/
theorem zipWith_commandBytes_silent (cs : Level) (c : Issuer) {limit n : Nat} {junk : List Byte} (hjunk : junk.length = 6)
    (hn : n ≤ limit) :
    List.zipWith (fun out b => Event.xfer cs out b) (commandBytes c limit) (junk ++ List.replicate n notReadyByte) =
      List.zipWith (fun out b => Event.xfer cs out b) (frameBytes c.index c.arg) junk ++
        List.replicate n (Event.xfer cs filler notReadyByte) := by
  rw [commandBytes, List.zipWith_append (by rw [frameBytes_length, hjunk]), List.zipWith_replicate, Nat.min_eq_right hn]

/-- When the frame is out, the command is at the first read of its poll, and what was received is in the history alone (R95). -/
theorem commandAt_frame (c : Issuer) {junk : List Byte} (rest : List Answer) (s : State) (hjunk : junk.length = 6) :
    commandAt c junk rest s = { s with
      frame := .written (frameOf c.index c.arg)
      crc := .written (frameCrc c.index c.arg)
      cntResp := .written 1
      seq := .cmd c .rx
      answers := rest
      history := (List.zipWith (fun out b => .xfer s.csLevel out b) (frameBytes c.index c.arg) junk).reverse ++ s.history } := by
  have hevents := zipWith_commandBytes_silent s.csLevel c hjunk (Nat.zero_le s.params.respPollLimit)
  rw [List.replicate_zero, List.replicate_zero, List.append_nil, List.append_nil] at hevents
  rw [commandAt, hevents, hjunk, framerAt_rx le_rfl]
  rfl

/-- A silent command, its frame out, is in a response poll that started when the frame was out. -/
theorem commandAt_silent (c : Issuer) {n : Nat} {junk : List Byte} (rest : List Answer) (s : State) (hjunk : junk.length = 6)
    (hn : n ≤ s.params.respPollLimit) :
    commandAt c (junk ++ List.replicate n notReadyByte) rest s = pollAt c n rest (commandAt c junk rest s) := by
  have hlen : (junk ++ List.replicate n notReadyByte).length = n + 6 := by simp [hjunk, Nat.add_comm]
  rw [commandAt_frame c rest s hjunk, commandAt, zipWith_commandBytes_silent _ _ hjunk hn, hlen, framerAt_rx (by omega),
    if_neg (by omega)]
  simp [pollAt]

/-- The six bytes of a frame's exchanges, and fewer reads of NOT_READY than the limit, leave a command unanswered. -/
theorem unanswered_silent {limit n : Nat} {junk : List Byte} (hjunk : junk.length = 6) (hn : n ≤ limit - 1) :
    unanswered limit (junk ++ List.replicate n notReadyByte) := by
  refine ⟨by simp [hjunk, hn], fun b hb => ?_⟩
  rw [List.drop_left' hjunk] at hb
  exact List.eq_of_mem_replicate hb

/-- The newest events of a silent command are its reads, and the frame's exchanges are before them. -/
theorem silentEvents_succ_reverse (cs : Level) (index : CmdIndex) (arg : Word32) (junk : List Byte) (n : Nat) :
    (silentEvents cs index arg junk (n + 1)).reverse =
      .xfer cs filler notReadyByte :: (List.replicate n (.xfer cs filler notReadyByte) ++
        (List.zipWith (fun out b => .xfer cs out b) (frameBytes index arg) junk).reverse) := by
  rw [silentEvents, List.reverse_append, List.reverse_replicate]
  rfl

/-- A command that is never answered runs to the timeout of its operation (R84, R96). -/
theorem runCommand_silent {c : Issuer} {n : Nat} {junk : List Byte} {rest : List Answer} {s : State}
    (hseq : s.seq = .cmd c (.tx 0)) (hjunk : junk.length = 6) (hlimit : s.params.respPollLimit = n + 1)
    (hans : s.answers = bytesAnswered (junk ++ List.replicate n notReadyByte) ++ .byte notReadyByte :: rest) :
    runCommand c s = raise c.operation c.timeoutStatus c.tag
      (pollRead c n notReadyByte rest (commandAt c junk (.byte notReadyByte :: rest) s)) := by
  have hbudget : commandBudget s.params = (junk ++ List.replicate n notReadyByte).length + 1 + 1 := by
    simp [commandBudget, hjunk, hlimit]; omega
  have htimeout := tick_pollAt_timeout c rest (commandAt c junk (.byte notReadyByte :: rest) s) hlimit
  rw [runCommand, hbudget, runCommandFor_unanswered 1 hseq (unanswered_silent hjunk (by omega)) hans,
    runCommandFor_inside _ (commandAt_inCommand c _ _ s), commandAt_silent c _ s hjunk (by omega),
    htimeout, runCommandFor_left _ rfl]

theorem running_of_inCommand {c : Issuer} {l : Seq} (h : l.inCommand c = true) : l.running = true := by
  cases l with
  | cmd d f => rfl
  | _ => cases h

/-- A run that is inside the command at its end is the sequencer's run. -/
theorem runFor_eq_runCommandFor {c : Issuer} {n : Nat} {s : State} (h : (runCommandFor c n s).seq.inCommand c = true) :
    runFor n s = runCommandFor c n s := by
  induction n generalizing s with
  | zero => rfl
  | succ n ih =>
    cases hin : s.seq.inCommand c with
    | true =>
      rw [runCommandFor_inside n hin] at h ⊢
      rw [runFor_running n (running_of_inCommand hin), ih h]
    | false =>
      rw [runCommandFor_left _ hin, hin] at h
      cases h

/-- A command run from its start through its frame (R80, R82). -/
theorem runFor_frame {c : Issuer} {junk : List Byte} {rest : List Answer} {s : State} (hseq : s.seq = .cmd c (.tx 0))
    (hjunk : junk.length = 6) (hans : s.answers = bytesAnswered junk ++ rest) : runFor 6 s = commandAt c junk rest s := by
  have hrun : runCommandFor c 6 s = commandAt c junk rest s := by
    have hin : s.seq.inCommand c = true := by simp [hseq, Seq.inCommand]
    have hsilent : unanswered s.params.respPollLimit junk := by simpa using unanswered_silent (n := 0) hjunk (Nat.zero_le _)
    have hthrough := runCommandFor_commandAt c [] junk rest s 0 hsilent
    rw [hjunk, ← hans] at hthrough
    rw [runCommandFor_inside 5 hin, tick_commandStart hseq, ← runCommandFor_inside 5 (commandAt_inCommand c _ _ s)]
    exact hthrough
  rw [runFor_eq_runCommandFor (hrun ▸ commandAt_inCommand c junk rest s), hrun]

/-! ## Chip-select and retries in a command -/

/-- The issuer of a command goes on to another command, out of the commands, or to the operation's end: never to the same command. -/
theorem afterResponse_leaves (c : Issuer) (r : Byte) (s : State) : (afterResponse c r s).seq.inCommand c = false := by
  cases c with
  | host index arg => rfl
  | iCmd0 => rw [afterResponse, initAfterCmd0]; split <;> rfl
  | iCmd8 => rw [afterResponse, initAfterCmd8]; split <;> rfl
  | iCmd55 => rfl
  | iAcmd41 =>
    rw [afterResponse, initAfterAcmd41]
    split
    · rfl
    · refine withRead_spec (P := fun t => t.seq.inCommand .iAcmd41 = false) (fun n _ => ?_) (fun f _ => rfl)
      split <;> rfl
  | iCmd58 => rw [afterResponse, initAfterCmd58]; split <;> rfl
  | iCmd16 => rw [afterResponse, initAfterCmd16]; split <;> rfl
  | rbCmd17 a => rw [afterResponse, readAfterCmd17]; split <;> rfl
  | wbCmd24 a =>
    rw [afterResponse, writeAfterCmd24]
    split
    · rw [goto_seq]; split <;> rfl
    · rfl

/-- From s to t the command of c made one completed exchange, with the pin as it was, and did not begin again. -/
structure CommandGoesOn (c : Issuer) (s t : State) : Prop where
  csLevel : t.csLevel = s.csLevel
  history : ∃ out received, t.history = .xfer s.csLevel out received :: s.history
  seq     : t.seq ≠ .cmd c (.tx 0)

/-- A step in a command leaves it, or goes on in it. -/
def LeavesOrGoesOn (c : Issuer) (s t : State) : Prop := t.seq.inCommand c = false ∨ CommandGoesOn c s t

theorem xfer_history_byte {s : State} {b : Byte} (out : Byte) (h : s.nextAnswer = .byte b) :
    (xfer out s).history = .xfer s.csLevel out b :: s.history := by
  rw [xfer_history, h]; rfl

theorem framerSend_cases (c : Issuer) (k : Fin 6) (s : State) : LeavesOrGoesOn c s (framerSend c k s) := by
  refine withRead_spec (P := LeavesOrGoesOn c s) (fun f _ => ?_) (fun f _ => .inl rfl)
  refine exchange_spec (fun b hb => .inr ?_) (fun _ => .inl rfl)
  have hhist := xfer_history_byte (f.byte k) hb
  split
  · exact ⟨by simp, ⟨_, b, hhist⟩, by simp⟩
  · exact ⟨by simp, ⟨_, b, hhist⟩, by simp⟩

theorem framerTx_cases (c : Issuer) (k : Fin 6) (s : State) : LeavesOrGoesOn c s (framerTx c k s) := by
  rw [framerTx]
  split
  · obtain hleft | ⟨hcs, hhist, hseq⟩ := framerSend_cases c k (loadFrame c s)
    · exact .inl hleft
    · exact .inr ⟨hcs, hhist, hseq⟩
  · exact framerSend_cases c k s

theorem framerRx_cases {c : Issuer} {s : State} (hseq : s.seq = .cmd c .rx) : LeavesOrGoesOn c s (framerRx c s) := by
  refine withRead_spec (P := LeavesOrGoesOn c s) (fun j _ => ?_) (fun f _ => .inl rfl)
  refine exchange_spec (fun b hb => ?_) (fun _ => .inl rfl)
  split
  · exact .inl (afterResponse_leaves ..)
  · split
    · exact .inr ⟨by simp, ⟨_, b, xfer_history_byte filler hb⟩, by simp [hseq]⟩
    · exact .inl rfl

/-- What a step inside a command can do (R85). -/
theorem tick_cmd_cases {c : Issuer} {f : Framer} {s : State} (hseq : s.seq = .cmd c f) : LeavesOrGoesOn c s (tick s) := by
  cases f with
  | tx k => rw [tick_tx hseq]; exact framerTx_cases c k s
  | rx => rw [tick_rx hseq]; exact framerRx_cases hseq

/-- The wire commands are issued with the card selected (R58, R110, R120, R126). -/
theorem issuerOk_selected {c : Issuer} {i : Instr} {s : State} (h : issuerOk c s) (hwire : c.wireCommand = some i) :
    s.csLevel = .low := by
  cases c with
  | host index arg => simp [Issuer.wireCommand] at hwire
  | _ => exact h.1

end Sys2Proof.Machine

namespace Sys2Proof.Proofs

open Sys2Proof Sys2Proof.Machine

/-- Settles O10: the six exchanges lead to `commandAt` with what they received, and of that only the history has a record. -/
theorem bytesReceivedDuringTheFrameAreDiscarded : Obligations.BytesReceivedDuringTheFrameAreDiscarded := by
  intro s c junk rest hseq hjunk hans
  rw [runFor_frame hseq hjunk hans, commandAt_frame c rest s hjunk]

/-- Settles O11: the reads of NOT_READY keep the poll going, and the step after them reads the response. -/
theorem firstByteNotFillerIsTheResponse : Obligations.FirstByteNotFillerIsTheResponse := by
  refine ⟨rfl, fun s c delay r rest hseq hcnt hdelay hr hans => ?_⟩
  rw [bytesAnswered_concat, bytesAnswered, List.map_replicate] at hans
  rw [runFor_poll hseq hcnt hdelay hans, tick_pollAt, isResponse_eq_true hr, if_pos rfl]
  rfl

/-- Settles O12: every read returns NOT_READY, so the last one allowed raises the timeout of the command. -/
theorem silentCardTimesOut : Obligations.SilentCardTimesOut := by
  refine ⟨rfl, fun s c tag rest hseq htag hcnt hlimit hans => ?_⟩
  obtain ⟨n, hn⟩ := Nat.exists_eq_add_of_le' hlimit
  rw [hseq, exchangeTag_cmd, Option.some.injEq] at htag
  rw [hn, bytesAnswered, List.map_replicate] at hans
  rw [hn, runFor_poll_timeout hseq hcnt hn hans, ← htag, ← timeoutStatus_eq]
  exact ⟨raise_seq .., raise_result .., raise_answers .., raise_r1 ..⟩

/-- Settles O13: `tick_cmd_cases`, and the invariant's chip-select level where a wire command is issued. -/
theorem framerLeavesChipSelectAlone : Obligations.FramerLeavesChipSelectAlone := by
  intro s c f hinv hseq
  have hissuer : issuerOk c s := by
    have hpos := hinv.position
    rw [hseq] at hpos
    exact hpos.1
  obtain hleft | ⟨hcs, hhist, hnew⟩ := tick_cmd_cases hseq
  · have hout : ∀ g, (tick s).seq ≠ .cmd c g := fun g hg => by simp [hg, Seq.inCommand] at hleft
    exact ⟨fun g hg => absurd hg (hout g), hout _, fun i hi => issuerOk_selected hissuer hi⟩
  · exact ⟨fun g _ => ⟨hcs, hhist⟩, hnew, fun i hi => issuerOk_selected hissuer hi⟩

/-- Settles O22: the silent command runs to the timeout of its issuer's operation. -/
theorem unansweredWireCommandEndsItsOperation : Obligations.UnansweredWireCommandEndsItsOperation := by
  intro s c i op tag junk rest hissued hseq hjunk hlimit hans
  obtain ⟨n, hn⟩ := Nat.exists_eq_add_of_le' hlimit
  rw [hn, silence, List.replicate_succ', ← List.append_assoc, bytesAnswered_concat] at hans
  rw [exec_issuedAs hissued, issue_start hseq, runCommand_silent hseq hjunk hn hans, timeoutStatus_eq,
    issuedAs_operation hissued, issuedAs_tag hissued, commandAt_frame c _ s hjunk, hn, silentEvents_succ_reverse, List.cons_append,
    List.append_assoc]
  rfl

end Sys2Proof.Proofs

/-!
PROOFS, family 42_init: the echo check of CMD8's tail (O29), and INIT's poll run to its limit (O30). An answered command ends in
`commandReturned`, with the issuer's `afterResponse`; an iteration of the poll is two of them, and iterations that do not end the poll
are named once, `PollPassed`, with all the registers they leave alone.
-/

/-! ## A command with a response -/

namespace Sys2Proof.Machine

theorem reply_answers_append (a : Reply) (rest : List Answer) :
    a.answers ++ rest =
      bytesAnswered a.junk ++ (List.replicate a.delay (.byte notReadyByte) ++ .byte a.r1 :: rest) := by
  simp [Reply.answers, bytesAnswered, notReadyByte]

/-- The newest event of an answered command is the read of its response, and before it the reads of NOT_READY. -/
theorem reply_events_reverse (cs : Level) (index : CmdIndex) (arg : Word32) (a : Reply) :
    (a.events cs index arg).reverse =
      .xfer cs filler a.r1 :: (List.replicate a.delay (.xfer cs filler notReadyByte) ++
        (List.zipWith (fun out b => .xfer cs out b) (frameBytes index arg) a.junk).reverse) := by
  rw [Reply.events, List.reverse_append, List.reverse_append, List.reverse_replicate]
  rfl

/-- A command that is answered runs, in the exchanges of R96, to what its issuer does with the response (R80 to R83). -/
theorem runFor_answered {c : Issuer} {a : Reply} {rest : List Answer} {s : State} (hseq : s.seq = .cmd c (.tx 0))
    (hok : a.ok s.params.respPollLimit) (hans : s.answers = a.answers ++ rest) :
    runFor a.count s = afterResponse c a.r1 (commandReturned c a rest s) := by
  obtain ⟨hjunk, hdelay, hr1⟩ := hok
  rw [reply_answers_append] at hans
  have hframe := commandAt_frame c (List.replicate a.delay (.byte notReadyByte) ++ .byte a.r1 :: rest) s hjunk
  have hpoll := runFor_poll (congrArg State.seq hframe) (congrArg State.cntResp hframe) hdelay rfl
  rw [Reply.count, runFor_add, runFor_frame hseq hjunk hans, hpoll, tick_pollAt, isResponse_eq_true hr1, if_pos rfl, hframe,
    commandReturned, reply_events_reverse, List.cons_append, List.append_assoc]
  rfl

/-- A response in the limit takes at most 6 + RESP_POLL_LIMIT exchanges (R96). -/
theorem reply_count_le {limit : Nat} {a : Reply} (h : a.ok limit) : a.count ≤ limit + 6 := by
  obtain ⟨-, hdelay, -⟩ := h
  rw [Reply.count]; omega

/-! ## INIT's poll -/

/-- The state in which INIT gets the R1 of an iteration's ACMD41 (R103). -/
def pollReturned (q : PollReply) (rest : List Answer) (s : State) : State :=
  commandReturned .iAcmd41 q.acmd41 rest (commandReturned .iCmd55 q.cmd55 (q.acmd41.answers ++ rest) s)

theorem pollReturned_history {q : PollReply} {s : State} (rest : List Answer) (hcs : s.csLevel = .low) :
    (pollReturned q rest s).history = q.events.reverse ++ s.history := by
  simp [pollReturned, commandReturned, PollReply.events, Issuer.index, Issuer.arg, hcs]

/-- One iteration of the poll: CMD55, whose R1 is ignored, and ACMD41, whose R1 decides (R103). -/
theorem runFor_iteration {q : PollReply} {rest : List Answer} {s : State} (hseq : s.seq = .cmd .iCmd55 (.tx 0))
    (hok : q.ok s.params.respPollLimit) (hans : s.answers = q.answers ++ rest) :
    runFor q.count s = initAfterAcmd41 q.acmd41.r1 (pollReturned q rest s) := by
  obtain ⟨h55, h41⟩ := hok
  rw [PollReply.answers, List.append_assoc] at hans
  rw [PollReply.count, runFor_add, runFor_answered hseq h55 hans]
  exact runFor_answered (c := .iAcmd41) rfl h41 rfl

/-- After an ACMD41 that is not ready, by the number of the iteration (R103, R104). -/
theorem initAfterAcmd41_notReady {r : Byte} {n : Nat} {s : State} (hr : r ≠ 0x00#8) (hcnt : s.cntPoll = .written n) :
    initAfterAcmd41 r s =
      if n < s.params.ocrPollLimit then { s with cntPoll := .written (n + 1) }.goto (.cmd .iCmd55 (.tx 0))
      else raise .init .timeoutInitPoll .sPoll s := by
  have hready : readyResponse r = false := beq_eq_false_iff_ne.mpr hr
  rw [initAfterAcmd41, hready, if_neg Bool.false_ne_true, State.readCntPoll, hcnt, readRegister_written, withRead_ok]

/-- From s to t, INIT's poll came to the start of its iteration n, with these events in time order: only FRAME, CRC, R1 and CNT_RESP
hold values that are not said here. -/
def PollPassed (n : Nat) (es : List Event) (rest : List Answer) (s t : State) : Prop :=
  ∃ frame crc r1 cntResp, t = { s with
    frame := frame
    crc := crc
    r1 := r1
    cntResp := cntResp
    cntPoll := .written n
    seq := .cmd .iCmd55 (.tx 0)
    answers := rest
    history := es.reverse ++ s.history }

theorem pollPassed_start {n : Nat} {rest : List Answer} {s : State} (hseq : s.seq = .cmd .iCmd55 (.tx 0))
    (hcnt : s.cntPoll = .written n) (hans : s.answers = rest) : PollPassed n [] rest s s := by
  refine ⟨s.frame, s.crc, s.r1, s.cntResp, ?_⟩
  subst hans
  simp [← hseq, ← hcnt]

theorem pollPassed_trans {n m : Nat} {es fs : List Event} {mid rest : List Answer} {s t u : State}
    (hst : PollPassed n es mid s t) (htu : PollPassed m fs rest t u) : PollPassed m (es ++ fs) rest s u := by
  obtain ⟨_, _, _, _, rfl⟩ := hst
  obtain ⟨frame, crc, r1, cntResp, rfl⟩ := htu
  exact ⟨frame, crc, r1, cntResp, by simp⟩

/-- An iteration that is not ready, before the last allowed one, leads to the next. -/
theorem pollPassed_iteration {n : Nat} {q : PollReply} {rest : List Answer} {s : State} (hseq : s.seq = .cmd .iCmd55 (.tx 0))
    (hcnt : s.cntPoll = .written n) (hcs : s.csLevel = .low) (hn : n < s.params.ocrPollLimit)
    (hok : q.ok s.params.respPollLimit) (hr1 : q.acmd41.r1 ≠ 0x00#8) (hans : s.answers = q.answers ++ rest) :
    PollPassed (n + 1) q.events rest s (runFor q.count s) := by
  have hnext := (initAfterAcmd41_notReady (s := pollReturned q rest s) hr1 hcnt).trans (if_pos hn)
  rw [runFor_iteration hseq hok hans, hnext]
  refine ⟨(pollReturned q rest s).frame, (pollReturned q rest s).crc, (pollReturned q rest s).r1,
    (pollReturned q rest s).cntResp, ?_⟩
  rw [← pollReturned_history rest hcs]
  rfl

/-- The iteration that is not ready and the last allowed one ends INIT by TimeoutInitPoll (R104). -/
theorem runFor_lastIteration {q : PollReply} {rest : List Answer} {s : State} (hseq : s.seq = .cmd .iCmd55 (.tx 0))
    (hcnt : s.cntPoll = .written s.params.ocrPollLimit) (hok : q.ok s.params.respPollLimit) (hr1 : q.acmd41.r1 ≠ 0x00#8)
    (hans : s.answers = q.answers ++ rest) :
    runFor q.count s = raise .init .timeoutInitPoll .sPoll (pollReturned q rest s) := by
  rw [runFor_iteration hseq hok hans]
  exact (initAfterAcmd41_notReady (s := pollReturned q rest s) hr1 hcnt).trans (if_neg (Nat.lt_irrefl _))

/-- Iterations that are not ready, none of them the last allowed one, lead to the next. -/
theorem pollPassed_iterations {n : Nat} {polls : List PollReply} {rest : List Answer} {s : State}
    (hseq : s.seq = .cmd .iCmd55 (.tx 0)) (hcnt : s.cntPoll = .written n) (hcs : s.csLevel = .low)
    (hn : n + polls.length ≤ s.params.ocrPollLimit)
    (hpolls : ∀ q ∈ polls, q.ok s.params.respPollLimit ∧ q.acmd41.r1 ≠ 0x00#8)
    (hans : s.answers = polls.flatMap PollReply.answers ++ rest) :
    PollPassed (n + polls.length) (polls.flatMap PollReply.events) rest s
      (runFor (polls.map PollReply.count).sum s) := by
  induction polls generalizing n s with
  | nil => exact pollPassed_start hseq hcnt hans
  | cons q qs ih =>
    obtain ⟨⟨hok, hr1⟩, hqs⟩ := List.forall_mem_cons.mp hpolls
    rw [List.flatMap_cons, List.append_assoc] at hans
    rw [List.length_cons] at hn
    have hfirst := pollPassed_iteration hseq hcnt hcs (by omega) hok hr1 hans
    have hrest : PollPassed (n + 1 + qs.length) (qs.flatMap PollReply.events) rest (runFor q.count s)
        (runFor (qs.map PollReply.count).sum (runFor q.count s)) := by
      obtain ⟨_, _, _, _, ht⟩ := hfirst
      rw [ht]
      exact ih rfl rfl hcs (Nat.add_right_comm n 1 _ ▸ hn) hqs rfl
    rw [List.length_cons, List.flatMap_cons, List.map_cons, List.sum_cons, runFor_add, Nat.add_comm qs.length, ← Nat.add_assoc]
    exact pollPassed_trans hfirst hrest

/-- Iterations up to the last allowed one, none ready, end INIT by TimeoutInitPoll (R104); u is the state before the error's exit
actions. -/
theorem runFor_pollExhausted {polls : List PollReply} {rest : List Answer} {s : State}
    (hseq : s.seq = .cmd .iCmd55 (.tx 0)) (hcnt : s.cntPoll = .written 1) (hcs : s.csLevel = .low)
    (hlen : polls.length = s.params.ocrPollLimit) (hlimit : 1 ≤ s.params.ocrPollLimit)
    (hpolls : ∀ q ∈ polls, q.ok s.params.respPollLimit ∧ q.acmd41.r1 ≠ 0x00#8)
    (hans : s.answers = polls.flatMap PollReply.answers ++ rest) :
    ∃ u, runFor (polls.map PollReply.count).sum s = raise .init .timeoutInitPoll .sPoll u ∧
      u.cntPoll = .written s.params.ocrPollLimit ∧ u.answers = rest ∧
      u.history = (polls.flatMap PollReply.events).reverse ++ s.history := by
  obtain ⟨qs, q, rfl⟩ : ∃ qs q, polls = qs ++ [q] :=
    (List.eq_nil_or_concat' polls).resolve_left (List.ne_nil_of_length_pos (by omega))
  obtain ⟨hqs, hq⟩ := List.forall_mem_append.mp hpolls
  obtain ⟨hok, hr1⟩ := List.forall_mem_singleton.mp hq
  rw [List.flatMap_append, List.flatMap_singleton, List.append_assoc] at hans
  rw [List.length_append, List.length_singleton, Nat.add_comm] at hlen
  obtain ⟨_, _, _, _, ht⟩ := pollPassed_iterations hseq hcnt hcs hlen.le hqs hans
  rw [hlen] at ht
  refine ⟨pollReturned q rest (runFor (qs.map PollReply.count).sum s), ?_, ?_, rfl, ?_⟩
  · rw [List.map_append, List.sum_append, List.map_singleton, List.sum_singleton, runFor_add, ht]
    exact runFor_lastIteration rfl rfl hok hr1 rfl
  · rw [ht]; rfl
  · rw [pollReturned_history rest (ht ▸ hcs), ht]
    simp

/-! ## An operation run to its end -/

/-- A run that has come to its end within the budget is the run to completion (R14, R150). -/
theorem runToIdle_of_runFor {n : Nat} {s t : State} (hrun : runFor n s = t) (hn : n ≤ operationBudget s.params)
    (ht : t.seq.running = false) : runToIdle s = t := by
  obtain ⟨k, hk⟩ := Nat.exists_eq_add_of_le hn
  rw [runToIdle, hk, runFor_add, hrun, runFor_stopped k ht]

/-- The iterations of a whole poll fit the budget of an operation. -/
theorem pollCount_le_budget {p : Params} {polls : List PollReply} (hlen : polls.length = p.ocrPollLimit)
    (hpolls : ∀ q ∈ polls, q.ok p.respPollLimit) : (polls.map PollReply.count).sum ≤ operationBudget p := by
  have hone : ∀ q ∈ polls, q.count ≤ 2 * (p.respPollLimit + 7) := fun q hq => by
    obtain ⟨h55, h41⟩ := hpolls q hq
    have hle55 := reply_count_le h55
    have hle41 := reply_count_le h41
    rw [PollReply.count]; omega
  have hsum : (polls.map PollReply.count).sum ≤ p.ocrPollLimit * (2 * (p.respPollLimit + 7)) := by
    simpa [hlen] using List.sum_le_card_nsmul (polls.map PollReply.count) _ (List.forall_mem_map.mpr hone)
  have hbudget : operationBudget p = p.ocrPollLimit * (2 * (p.respPollLimit + 7)) + 6 * (p.respPollLimit + 7) +
      (2000 + p.powerupDummyBytes + p.writeGapBytes + p.tokenPollLimit + p.busyPollLimit) := by
    rw [operationBudget]; ring
  omega

/-- INIT is accepted in IDLE whatever INIT_STATE is (R111). -/
theorem exec_init_idle {s : State} (h : s.seq = .idle) :
    exec .init s = .next (runToIdle (initEntry (s.log (.begun .init)))) := if_pos h

/-! ## The tail of CMD8 -/

theorem tick_cmd8Tail {s : State} {k : Fin 4} (h : s.seq = .iCmd8Tail k) : tick s = initCmd8Tail k s := by simp [tick, h]

/-- The state after a read that put a byte into TAIL[k], before the sequencer goes on (R102, R105). -/
def tailRead (k : Fin 4) (b : Byte) (rest : List Answer) (s : State) : State :=
  { s with tail := s.tail.set k b, answers := rest, history := .xfer s.csLevel filler b :: s.history }

/-- What the read of TAIL[k] leads to: the next one, or the echo check (R102). -/
theorem tick_cmd8Tail_byte {k : Fin 4} {b : Byte} {rest : List Answer} {s : State} (hseq : s.seq = .iCmd8Tail k)
    (hans : s.answers = .byte b :: rest) :
    tick s = if h : k.val + 1 < 4 then (tailRead k b rest s).goto (.iCmd8Tail ⟨k.val + 1, h⟩)
      else initCheckEcho (tailRead k b rest s) := by
  rw [tick_cmd8Tail hseq, initCmd8Tail, exchange_byte (nextAnswer_cons hans), xfer_of_byte filler hans]
  rfl

/-- The state after the four reads of the tail, before the echo check (R102). -/
def tailReceived (t0 t1 t2 t3 : Byte) (rest : List Answer) (s : State) : State :=
  { s with
    tail := { t0 := .written t0, t1 := .written t1, t2 := .written t2, t3 := .written t3 }
    seq := .iCmd8Tail 3
    answers := rest
    history := (fillerReads s.csLevel [t0, t1, t2, t3]).reverse ++ s.history }

theorem runFor_cmd8Tail {t0 t1 t2 t3 : Byte} {rest : List Answer} {s : State} (hseq : s.seq = .iCmd8Tail 0)
    (hans : s.answers = bytesAnswered [t0, t1, t2, t3] ++ rest) :
    runFor 4 s = initCheckEcho (tailReceived t0 t1 t2 t3 rest s) := by
  have hrun : s.seq.running = true := by rw [hseq]; rfl
  rw [runFor_running 3 hrun, tick_cmd8Tail_byte hseq hans, dif_pos (by decide),
    runFor_running 2 rfl, tick_cmd8Tail_byte rfl rfl, dif_pos (by decide),
    runFor_running 1 rfl, tick_cmd8Tail_byte rfl rfl, dif_pos (by decide),
    runFor_running 0 rfl, tick_cmd8Tail_byte rfl rfl, dif_neg (by decide), runFor_zero]
  simp [tailRead, tailReceived, Tail.set, State.goto, fillerReads, filler]

/-- The echo check of received bytes: on to the poll, or BadResponse (R102). -/
theorem initCheckEcho_tailReceived (t0 t1 t2 t3 : Byte) (rest : List Answer) (s : State) :
    initCheckEcho (tailReceived t0 t1 t2 t3 rest s) =
      if t2 = 0x01#8 ∧ t3 = 0xAA#8 then initEnterPoll (tailReceived t0 t1 t2 t3 rest s)
      else raise .init .badResponse .sCmd8Echo (tailReceived t0 t1 t2 t3 rest s) := by
  have hecho : echoGood t2 t3 = true ↔ t2 = 0x01#8 ∧ t3 = 0xAA#8 := by simp [echoGood]
  simp only [← hecho]
  rfl

end Sys2Proof.Machine

namespace Sys2Proof.Proofs

open Sys2Proof Sys2Proof.Machine

/-- Settles O29: the four reads fill TAIL, and the echo check goes on to the poll or raises. -/
theorem badEchoFailsInit : Obligations.BadEchoFailsInit := by
  intro s t0 t1 t2 t3 rest hseq hans
  rw [runFor_cmd8Tail hseq hans, initCheckEcho_tailReceived]
  by_cases hecho : t2 = 0x01#8 ∧ t3 = 0xAA#8
  · rw [if_pos hecho, if_pos hecho]
    exact ⟨rfl, rfl, rfl, rfl, rfl, rfl⟩
  · rw [if_neg hecho, if_neg hecho]
    exact ⟨rfl, rfl, rfl, rfl, rfl, rfl, rfl⟩

/-- Settles O30: each iteration but the last leads to the next, the last allowed one raises, and in IDLE INIT is accepted. -/
theorem initPollFailsAfterExactlyItsLimit : Obligations.InitPollFailsAfterExactlyItsLimit := by
  intro s polls rest hseq hcnt hcs hlen hlimit hpolls hans
  obtain ⟨u, hrun, hucnt, huans, huhist⟩ := runFor_pollExhausted hseq hcnt hcs hlen hlimit hpolls hans
  have hbudget := pollCount_le_budget hlen fun q hq => (hpolls q hq).1
  have hidle : (raise .init .timeoutInitPoll .sPoll u).seq = .idle := raise_seq ..
  refine ⟨_, runToIdle_of_runFor hrun hbudget rfl, hidle, rfl, (raise_cntPoll ..).trans hucnt, raise_result .., ?_,
    (raise_answers ..).trans huans, _, exec_init_idle hidle⟩
  rw [← huhist]
  rfl

end Sys2Proof.Proofs

/-!
PROOFS, family 43_block_transfer: the wire address of a transfer (O34), and the busy wait of WRITE_BLOCK (O43). The states of the busy
poll are named once, `busyAt`, with what the sequencer's step does there.
-/

/-! ## The wire address of a block transfer -/

namespace Sys2Proof.Machine

/-- Below 2^23 the byte offset of a standard-capacity index fits 32 bits (R113). -/
theorem wireAddress_standard_fits {index : Word32} (h : index.toNat < 2 ^ 23) :
    ∃ a, wireAddress .standard index = .ok a ∧ a.toNat = index.toNat * 512 := by
  refine ⟨index <<< 9, by rw [wireAddress, standardAddress, if_pos h], ?_⟩
  rw [BitVec.toNat_shiftLeft, Nat.shiftLeft_eq]
  omega

/-- From 2^23 on it does not, and no address wraps (R114). -/
theorem wireAddress_standard_overflows {index : Word32} (h : 2 ^ 23 ≤ index.toNat) :
    wireAddress .standard index = .error .addrOverflow := by
  rw [wireAddress, standardAddress, if_neg (Nat.not_lt.mpr h)]

/-- A Ready block in IDLE asks only for the wire address (R115, R134). -/
theorem transferAddress_ready {s : State} (index : Word32) (hidle : s.seq = .idle) (hready : s.initState = .ready) :
    transferAddress index s = wireAddress s.cap index := by
  rw [transferAddress, if_pos hidle, if_pos hready]

theorem transferAddress_notReady {s : State} (index : Word32) (hidle : s.seq = .idle) (hready : s.initState ≠ .ready) :
    transferAddress index s = .error .notReady := by
  rw [transferAddress, if_pos hidle, if_neg hready]

/-- In IDLE the invariant ties CAP to the readiness (R20, R109). -/
theorem blockInv_idle_capSettled {s : State} (h : BlockInv s) (hidle : s.seq = .idle) : capSettled s := by
  have hpos := h.position
  rw [hidle] at hpos
  exact hpos.2

theorem request_idle {s : State} (op : Instr) (setUp : State → State) (hidle : s.seq = .idle) :
    request op setUp s = .next (runToIdle (setUp (s.log (.begun op)))) := if_pos hidle

/-- READ_BLOCK with a wire address begins, and starts at RB_SEL with it (R116). -/
theorem exec_readBlock_address {s : State} {index a : Word32} (hidle : s.seq = .idle) (ha : transferAddress index s = .ok a) :
    exec (.readBlock index) s = .next (runToIdle ((s.log (.begun (.readBlock index))).goto (.rbSel a))) := by
  rw [exec, execReadBlock, ha]
  exact request_idle _ _ hidle

/-- WRITE_BLOCK with a wire address and a whole block begins, puts the block into BUF, and starts at WB_SEL with the address (R121). -/
theorem exec_writeBlock_address {s : State} {index a : Word32} {data : List Byte} (hidle : s.seq = .idle)
    (hdata : data.length = blockSize) (ha : transferAddress index s = .ok a) :
    exec (.writeBlock index data) s = .next (runToIdle
      ({ s.log (.begun (.writeBlock index data)) with buf := cellsFrom 0 data }.goto (.wbSel a))) := by
  rw [exec, execWriteBlock, if_pos hdata, ha]
  exact request_idle _ _ hidle

end Sys2Proof.Machine

namespace Sys2Proof.Proofs

open Sys2Proof Sys2Proof.Machine

/-- Settles O34: the two sides of 2^23, CAP against the readiness in an idle block, and one address for both transfers. -/
theorem wireAddressIsIndexOrByteOffset : Obligations.WireAddressIsIndexOrByteOffset := by
  intro index
  refine ⟨rfl, wireAddress_standard_fits, wireAddress_standard_overflows, fun s hinv hidle hcap => ?_,
    fun s a data hidle hready hdata ha => ?_⟩
  · exact transferAddress_notReady index hidle ((blockInv_idle_capSettled hinv hidle).mp hcap)
  · rw [← transferAddress_ready index hidle hready] at ha
    exact ⟨exec_readBlock_address hidle ha, exec_writeBlock_address hidle hdata ha⟩

end Sys2Proof.Proofs

/-! ## The busy wait -/

namespace Sys2Proof.Machine

/-- The state of a busy poll that started in s, after reads that received these bytes, none of them 0xFF; `rest` are the answers still to
come (R125). -/
def busyAt (received : List Byte) (rest : List Answer) (s : State) : State :=
  { s with
    cntBusy := .written (received.length + 1)
    seq := .wbBusy
    answers := rest
    history := (fillerReads s.csLevel received).reverse ++ s.history }

/-- The state at WB_END after a busy poll that started in s and read these bytes, its last read the one CNT_BUSY counts (R125). -/
def busyOver (bx : Bool) (received : List Byte) (rest : List Answer) (s : State) : State :=
  { s with
    cntBusy := .written received.length
    seq := .wbEnd bx
    answers := rest
    history := (fillerReads s.csLevel received).reverse ++ s.history }

theorem tick_wbBusy {s : State} (h : s.seq = .wbBusy) : tick s = writeBusy s := by simp [tick, h]
theorem tick_wbEnd {s : State} {bx : Bool} (h : s.seq = .wbEnd bx) : tick s = writeEnd bx s := by simp [tick, h]

theorem notBusy_eq_false {b : Byte} (h : b ≠ 0xFF#8) : notBusy b = false := beq_eq_false_iff_ne.mpr h

/-- The newest event of the reads is the last one. -/
theorem fillerReads_concat_reverse (cs : Level) (bs : List Byte) (b : Byte) :
    (fillerReads cs (bs ++ [b])).reverse = .xfer cs 0xFF#8 b :: (fillerReads cs bs).reverse := by
  simp [fillerReads]

/-- A busy poll begins with CNT_BUSY at 1. -/
theorem busyAt_start {s : State} (hseq : s.seq = .wbBusy) (hcnt : s.cntBusy = .written 1) : busyAt [] s.answers s = s := by
  simp [busyAt, fillerReads, ← hseq, ← hcnt]

/-- What a step of the busy poll does with the byte it reads (R125). -/
theorem tick_busyAt (received : List Byte) (b : Byte) (rest : List Answer) (s : State) :
    tick (busyAt received (.byte b :: rest) s) =
      if notBusy b then busyOver false (received ++ [b]) rest s
      else if received.length + 1 < s.params.busyPollLimit then busyAt (received ++ [b]) rest s
      else busyOver true (received ++ [b]) rest s := by
  have hread : (busyAt received (.byte b :: rest) s).readCntBusy = .ok (received.length + 1) := rfl
  rw [tick_wbBusy rfl, writeBusy, hread, withRead_ok, exchange_byte rfl, xfer_of_byte filler rfl]
  simp only [busyAt, busyOver, fillerReads_concat_reverse, List.length_append]
  rfl

/-- Reads of other bytes than 0xFF within the limit keep the poll going. -/
theorem runFor_busyAt (received more : List Byte) (rest : List Answer) (s : State) (hmore : ∀ b ∈ more, b ≠ 0xFF#8)
    (h : received.length + more.length < s.params.busyPollLimit) :
    runFor more.length (busyAt received (bytesAnswered more ++ rest) s) = busyAt (received ++ more) rest s := by
  induction more generalizing received with
  | nil => simp [bytesAnswered]
  | cons b more ih =>
    obtain ⟨hb, hbs⟩ := List.forall_mem_cons.mp hmore
    rw [List.length_cons] at h
    have hstep : tick (busyAt received (.byte b :: (bytesAnswered more ++ rest)) s) =
        busyAt (received ++ [b]) (bytesAnswered more ++ rest) s := by
      rw [tick_busyAt, notBusy_eq_false hb, if_neg Bool.false_ne_true, if_pos (by omega)]
    have hrest := ih (received ++ [b]) hbs (by rw [List.length_append, List.length_singleton]; omega)
    rw [List.append_cons, ← hrest, ← hstep]
    exact runFor_running more.length rfl

/-- The read that ends a busy poll: it gets 0xFF, or it is the last allowed one (R125). -/
theorem tick_busyAt_last {received : List Byte} {b : Byte} (rest : List Answer) (s : State)
    (h : b = 0xFF#8 ∨ received.length + 1 = s.params.busyPollLimit) :
    tick (busyAt received (.byte b :: rest) s) = busyOver (!notBusy b) (received ++ [b]) rest s := by
  rw [tick_busyAt]
  cases hb : notBusy b with
  | true => rw [if_pos rfl, Bool.not_true]
  | false =>
    have hlimit : received.length + 1 = s.params.busyPollLimit :=
      h.resolve_left fun heq => Bool.false_ne_true (hb.symm.trans (heq ▸ rfl))
    rw [if_neg Bool.false_ne_true, if_neg (by omega), Bool.not_false]

/-- A busy poll from its start, through the read that ends it, and WB_END after it (R125, R126). -/
theorem runFor_busy {bytes : List Byte} {b : Byte} {rest : List Answer} {s : State} (hseq : s.seq = .wbBusy)
    (hcnt : s.cntBusy = .written 1) (hbytes : ∀ c ∈ bytes, c ≠ 0xFF#8) (hlen : bytes.length < s.params.busyPollLimit)
    (hlast : b = 0xFF#8 ∨ bytes.length + 1 = s.params.busyPollLimit)
    (hans : s.answers = bytesAnswered (bytes ++ [b]) ++ rest) :
    runFor (bytes.length + 2) s = writeEnd (!notBusy b) (busyOver (!notBusy b) (bytes ++ [b]) rest s) := by
  rw [bytesAnswered_concat] at hans
  have hpoll := runFor_busyAt [] bytes (.byte b :: rest) s hbytes (by rwa [List.length_nil, Nat.zero_add])
  rw [← hans, busyAt_start hseq hcnt, List.nil_append] at hpoll
  rw [runFor_add, hpoll, runFor_running 1 rfl, tick_busyAt_last rest s hlast, runFor_running 0 rfl, tick_wbEnd rfl, runFor_zero]

/-- WRITE_BLOCK's exit: in IDLE with status 0, whether or not the poll ran out, and the card deselected (R126). -/
theorem writeEnd_statusZero (bx : Bool) (s : State) :
    (writeEnd bx s).seq = .idle ∧ (writeEnd bx s).answers = s.answers ∧
      ∃ r, r.status = .ok ∧ (writeEnd bx s).result = .written r ∧
        (writeEnd bx s).history = .ended r :: .pin .high :: s.history :=
  ⟨complete_seq .., complete_answers .., okResult bx none, rfl, complete_result .., complete_history ..⟩

end Sys2Proof.Machine

namespace Sys2Proof.Proofs

open Sys2Proof Sys2Proof.Machine

/-- Settles O43: the poll ends by a read of 0xFF or by its last allowed read, and WB_END follows either way. -/
theorem busyWaitEndsWithStatusZero : Obligations.BusyWaitEndsWithStatusZero := by
  refine ⟨rfl, fun s bytes rest hseq hcnt hbytes => ⟨fun hlen hans => ?_, fun hlen hlimit hans => ?_⟩⟩
  · rw [runFor_busy hseq hcnt hbytes hlen (.inl rfl) hans]
    exact writeEnd_statusZero ..
  · obtain ⟨reads, b, rfl⟩ : ∃ reads b, bytes = reads ++ [b] :=
      (List.eq_nil_or_concat' bytes).resolve_left (List.ne_nil_of_length_pos (by omega))
    obtain ⟨hreads, -⟩ := List.forall_mem_append.mp hbytes
    rw [List.length_append, List.length_singleton] at hlen ⊢
    rw [runFor_busy hseq hcnt hreads (by omega) (.inr hlen) hans]
    exact writeEnd_statusZero ..

end Sys2Proof.Proofs

/-!
PROOFS, family 60_exceptions: every operation ends (O52). `stepsLeft` counts the primitives an operation may still make, from its label,
its poll counters and the parameters alone. A step that neither ends the operation nor stops at a forbidden read lowers the count
(`tick_progress`), and the count is below the model's own budget (`stepsLeft_lt_budget`).
-/

/-! ## A bound on the primitives still to make -/

namespace Sys2Proof.Machine

/-- The steps of INIT from an iteration of its poll on, where `iterations` may still begin: two commands for each, then CMD58, the OCR,
CMD16 and I_END (R103 to R108). -/
def initPollSteps (p : Params) (iterations : Nat) : Nat :=
  iterations * (2 * commandBudget p) + (commandBudget p + (4 + (commandBudget p + 1)))

/-- The steps of INIT's poll and what follows it, where CMD55 goes out with CNT_POLL = 1 (R103). -/
def initPollStart (p : Params) : Nat := 2 * commandBudget p + initPollSteps p (p.ocrPollLimit - 1)

/-- The steps after a command's response, at most (R86 to R93; for the host, R80). -/
def stepsAfterResponse (c : Issuer) (s : State) : Nat :=
  match c with
  | .host _ _ => 0
  | .iCmd0 => commandBudget s.params + (4 + initPollStart s.params)
  | .iCmd8 => 4 + initPollStart s.params
  | .iCmd55 => commandBudget s.params + initPollSteps s.params (s.params.ocrPollLimit - s.cntPoll.value)
  | .iAcmd41 => initPollSteps s.params (s.params.ocrPollLimit - s.cntPoll.value)
  | .iCmd58 => 4 + (commandBudget s.params + 1)
  | .iCmd16 => 1
  | .rbCmd17 _ => s.params.tokenPollLimit + 516
  | .wbCmd24 _ => s.params.writeGapBytes + s.params.busyPollLimit + 519

/-- The steps of a command from a position of its framer to its response, at most (R80). -/
def framerSteps (f : Framer) (s : State) : Nat :=
  match f with
  | .tx k => commandBudget s.params - k.val
  | .rx => s.params.respPollLimit - s.cntResp.value + 1

/-- The steps from a label of the sequencer to the operation's end, at most (R28, R31). -/
def labelSteps (l : Seq) (s : State) : Nat :=
  match l with
  | .idle => 0
  | .stuck _ => 0
  | .cRun _ => 1
  | .cmd c f => framerSteps f s + stepsAfterResponse c s
  | .iDesel => s.params.powerupDummyBytes + 7 + 2 * commandBudget s.params + initPollStart s.params
  | .iDummy k => s.params.powerupDummyBytes - k + 6 + 2 * commandBudget s.params + initPollStart s.params
  | .iSel => 5 + 2 * commandBudget s.params + initPollStart s.params
  | .iCmd8Tail k => 4 - k.val + initPollStart s.params
  | .iOcr k => 4 - k.val + (commandBudget s.params + 1)
  | .iEnd => 1
  | .rbSel _ => commandBudget s.params + s.params.tokenPollLimit + 517
  | .rbToken => s.params.tokenPollLimit - s.cntToken.value + 516
  | .rbData k => 515 - k.val
  | .rbCrc k => 3 - k.val
  | .rbEnd => 1
  | .wbSel _ => commandBudget s.params + s.params.writeGapBytes + s.params.busyPollLimit + 520
  | .wbGap k => s.params.writeGapBytes - k + s.params.busyPollLimit + 519
  | .wbToken => s.params.busyPollLimit + 518
  | .wbData k => s.params.busyPollLimit + 517 - k.val
  | .wbCrc k => s.params.busyPollLimit + 5 - k.val
  | .wbResp => s.params.busyPollLimit + 3
  | .wbBusy => s.params.busyPollLimit - s.cntBusy.value + 2
  | .wbEnd _ => 1

/-- The count of primitives left to the operation in progress: each that does not end it lowers the count (`tick_progress`). -/
def stepsLeft (s : State) : Nat := labelSteps s.seq s

/-! ## What one step does to the bound -/

/-- The operation ended with this step: End(RESULT) is the newest event, and SEQ = IDLE (R137). -/
def JustEnded (t : State) : Prop :=
  t.seq = .idle ∧ ∃ r rest, t.history = .ended r :: rest ∧ t.result = .written r

/-- From s to t the operation goes on: no End, and fewer steps left. -/
structure OperationGoesOn (s t : State) : Prop where
  running : t.seq.running = true
  ended   : endedCount t.history = endedCount s.history
  fewer   : stepsLeft t < stepsLeft s

/-- What one step of an operation can do; the last case is R38's fault, which the invariant rules out. -/
def Progress (s t : State) : Prop := JustEnded t ∨ OperationGoesOn s t ∨ ∃ f, t.seq = .stuck f

theorem stepsLeft_at {s : State} {l : Seq} (hseq : s.seq = l) : stepsLeft s = labelSteps l s := by rw [stepsLeft, hseq]

theorem raise_progress (s : State) (op : Operation) (k : Status) (tag : StepTag) (u : State) : Progress s (raise op k tag u) :=
  .inl ⟨raise_seq .., _, _, raise_history .., raise_result ..⟩

theorem complete_progress (s : State) (bx : Bool) (v : Option Value) (u : State) : Progress s (complete bx v u) :=
  .inl ⟨complete_seq .., _, _, complete_history .., complete_result ..⟩

theorem goto_progress {s u : State} {l : Seq} (hrun : l.running = true) (hended : endedCount u.history = endedCount s.history)
    (hfewer : labelSteps l u < stepsLeft s) : Progress s (u.goto l) :=
  .inr (.inl ⟨hrun, hended, by cases l <;> exact hfewer⟩)

/-- A poll that reads again stays at its label, with a counter further on (R28). -/
theorem stay_progress {s t : State} (hrun : s.seq.running = true) (hseq : t.seq = s.seq)
    (hended : endedCount t.history = endedCount s.history) (hfewer : labelSteps s.seq t < stepsLeft s) : Progress s t :=
  .inr (.inl ⟨hseq ▸ hrun, hended, by rwa [stepsLeft, hseq]⟩)

theorem withRead_progress {α : Type} {s u : State} {v : Except Fault α} {use : α → State → State}
    (h : ∀ a, v = .ok a → Progress s (use a u)) : Progress s (withRead v use u) :=
  withRead_spec h (fun f _ => .inr (.inr ⟨f, rfl⟩))

theorem exchange_progress {s u : State} {op : Operation} {tag : StepTag} {out : Byte} {use : Byte → State → State}
    (h : ∀ b, Progress s (use b (xfer out u))) : Progress s (exchange op tag out use u) :=
  exchange_spec (fun b _ => h b) (fun _ => raise_progress ..)

/-- A register read that goes on gives what the register holds. -/
theorem value_of_readRegister {α : Type} {r : Register} {v : Reg α} {a : α} (h : readRegister r v = .ok a) : v.value = a := by
  cases v with
  | written b => exact Except.ok.inj h
  | unwritten b => cases h

/-! ## The steps of INIT -/

theorem initPollSteps_succ (p : Params) (n : Nat) : initPollSteps p (n + 1) = 2 * commandBudget p + initPollSteps p n := by
  rw [initPollSteps, initPollSteps]; ring

/-- What follows the poll is counted whatever iterations are left. -/
theorem le_initPollSteps (p : Params) (n : Nat) : commandBudget p + (4 + (commandBudget p + 1)) ≤ initPollSteps p n :=
  Nat.le_add_left ..

theorem initEnterPoll_progress {s u : State} (hended : endedCount u.history = endedCount s.history)
    (hfewer : initPollStart u.params < stepsLeft s) : Progress s (initEnterPoll u) := by
  refine goto_progress rfl hended ?_
  simp only [labelSteps, framerSteps, stepsAfterResponse, initPollStart, Reg.value_written] at hfewer ⊢
  omega

theorem initCheckEcho_progress {s u : State} (hended : endedCount u.history = endedCount s.history)
    (hfewer : initPollStart u.params < stepsLeft s) : Progress s (initCheckEcho u) := by
  refine withRead_progress (fun t2 _ => withRead_progress (fun t3 _ => ?_))
  split
  · exact initEnterPoll_progress hended hfewer
  · exact raise_progress ..

theorem initDecideCapacity_progress {s u : State} (hended : endedCount u.history = endedCount s.history)
    (hfewer : commandBudget u.params + 1 < stepsLeft s) : Progress s (initDecideCapacity u) := by
  refine withRead_progress (fun legacy _ => withRead_progress (fun t0 _ => ?_))
  split
  · exact goto_progress rfl hended hfewer
  · refine goto_progress rfl hended ?_
    simp only [labelSteps]; omega

/-- The issuer of an answered command ends the operation, or goes on with no more steps than are counted after its response. -/
theorem afterResponse_progress {s u : State} (c : Issuer) (r : Byte) (hended : endedCount u.history = endedCount s.history)
    (hfewer : stepsAfterResponse c u < stepsLeft s) : Progress s (afterResponse c r u) := by
  cases c with
  | host index arg => exact complete_progress ..
  | iCmd0 =>
    rw [afterResponse, initAfterCmd0]
    split
    · exact goto_progress rfl hended hfewer
    · exact raise_progress ..
  | iCmd8 =>
    rw [afterResponse, initAfterCmd8]
    split
    · refine initEnterPoll_progress hended ?_
      simp only [stepsAfterResponse] at hfewer ⊢; omega
    · exact goto_progress rfl hended hfewer
  | iCmd55 => exact goto_progress rfl hended hfewer
  | iAcmd41 =>
    rw [afterResponse, initAfterAcmd41]
    have hafter := le_initPollSteps u.params (u.params.ocrPollLimit - u.cntPoll.value)
    simp only [stepsAfterResponse] at hfewer
    split
    · refine goto_progress rfl hended ?_
      simp only [labelSteps, framerSteps, stepsAfterResponse]; omega
    · refine withRead_progress (fun n hn => ?_)
      obtain rfl := value_of_readRegister hn
      split
      · next hlt =>
        have hleft : u.params.ocrPollLimit - u.cntPoll.value = u.params.ocrPollLimit - (u.cntPoll.value + 1) + 1 := by omega
        rw [hleft, initPollSteps_succ] at hfewer
        refine goto_progress rfl hended ?_
        simp only [labelSteps, framerSteps, stepsAfterResponse, Reg.value_written]; omega
      · exact raise_progress ..
  | iCmd58 =>
    rw [afterResponse, initAfterCmd58]
    split
    · exact goto_progress rfl hended hfewer
    · exact raise_progress ..
  | iCmd16 =>
    rw [afterResponse, initAfterCmd16]
    split
    · exact goto_progress rfl hended hfewer
    · exact raise_progress ..
  | rbCmd17 a =>
    rw [afterResponse, readAfterCmd17]
    split
    · refine goto_progress rfl hended ?_
      simp only [labelSteps, stepsAfterResponse, Reg.value_written] at hfewer ⊢; omega
    · exact raise_progress ..
  | wbCmd24 a =>
    rw [afterResponse, writeAfterCmd24]
    simp only [stepsAfterResponse] at hfewer
    split
    · split
      · refine goto_progress rfl hended ?_
        simp only [labelSteps]; omega
      · refine goto_progress rfl hended ?_
        simp only [labelSteps]; omega
    · exact raise_progress ..

/-! ## The steps of a command -/

/-- An exchange changes nothing that the count of steps reads. -/
theorem stepsAfterResponse_xfer (c : Issuer) (out : Byte) (s : State) : stepsAfterResponse c (xfer out s) = stepsAfterResponse c s := by
  simp only [stepsAfterResponse, xfer_params, xfer_cntPoll]

/-- An exchange is no End. -/
theorem endedCount_xfer (out : Byte) (s : State) : endedCount (xfer out s).history = endedCount s.history := by
  rw [xfer_history, endedCount_xferEvent]

theorem framerSend_progress {s u : State} (c : Issuer) (k : Fin 6) (hended : endedCount u.history = endedCount s.history)
    (hle : labelSteps (.cmd c (.tx k)) u ≤ stepsLeft s) : Progress s (framerSend c k u) := by
  refine withRead_progress (fun f _ => exchange_progress (fun b => ?_))
  have hafter := stepsAfterResponse_xfer c (f.byte k) u
  have hended := (endedCount_xfer (f.byte k) u).trans hended
  simp only [labelSteps, framerSteps, commandBudget] at hle
  split
  · refine goto_progress rfl hended ?_
    simp only [labelSteps, framerSteps, commandBudget, xfer_params]; omega
  · refine goto_progress rfl hended ?_
    change framerSteps .rx _ + stepsAfterResponse c (xfer (f.byte k) u) < stepsLeft s
    simp only [framerSteps, xfer_params, Reg.value_written]; omega

theorem framerTx_progress {s : State} {c : Issuer} {k : Fin 6} (hseq : s.seq = .cmd c (.tx k)) :
    Progress s (framerTx c k s) := by
  have hle := (stepsLeft_at hseq).ge
  rw [framerTx]
  split
  · exact framerSend_progress c k rfl hle
  · exact framerSend_progress c k rfl hle

theorem framerRx_progress {s : State} {c : Issuer} (hseq : s.seq = .cmd c .rx) : Progress s (framerRx c s) := by
  have hleft := stepsLeft_at hseq
  simp only [labelSteps, framerSteps] at hleft
  refine withRead_progress (fun j hj => exchange_progress (fun b => ?_))
  obtain rfl := value_of_readRegister hj
  have hafter := stepsAfterResponse_xfer c filler s
  have hended := endedCount_xfer filler s
  split
  · refine afterResponse_progress c b hended ?_
    change stepsAfterResponse c (xfer filler s) < stepsLeft s
    omega
  · split
    · next hlt =>
      refine stay_progress (hseq ▸ rfl) (xfer_seq filler s) hended ?_
      rw [hseq]
      change framerSteps .rx _ + stepsAfterResponse c (xfer filler s) < stepsLeft s
      simp only [framerSteps, xfer_params, Reg.value_written] at hlt ⊢; omega
    · exact raise_progress ..

/-! ## The labels of INIT -/

theorem initDeselect_progress {s : State} (hseq : s.seq = .iDesel) : Progress s (initDeselect s) := by
  have hleft := stepsLeft_at hseq
  simp only [labelSteps] at hleft
  rw [initDeselect]
  split
  all_goals
    refine goto_progress rfl (by simp) ?_
    simp only [labelSteps, csSet_params]; omega

theorem initDummy_progress {s : State} {k : Nat} (hseq : s.seq = .iDummy k) : Progress s (initDummy k s) := by
  have hleft := stepsLeft_at hseq
  simp only [labelSteps] at hleft
  refine exchange_progress (fun b => ?_)
  split
  · next hlt =>
    refine goto_progress rfl (endedCount_xfer ..) ?_
    simp only [labelSteps, xfer_params] at hlt ⊢; omega
  · refine goto_progress rfl (endedCount_xfer ..) ?_
    simp only [labelSteps, xfer_params]; omega

theorem initSelect_progress {s : State} (hseq : s.seq = .iSel) : Progress s (initSelect s) := by
  refine goto_progress rfl (by simp) ?_
  rw [stepsLeft_at hseq]
  simp only [labelSteps, framerSteps, stepsAfterResponse, csSet_params]; omega

theorem initCmd8Tail_progress {s : State} {k : Fin 4} (hseq : s.seq = .iCmd8Tail k) : Progress s (initCmd8Tail k s) := by
  have hleft := stepsLeft_at hseq
  simp only [labelSteps] at hleft
  refine exchange_progress (fun b => ?_)
  split
  · refine goto_progress rfl (endedCount_xfer ..) ?_
    simp only [labelSteps, xfer_params]; omega
  · refine initCheckEcho_progress (endedCount_xfer ..) ?_
    simp only [xfer_params]; omega

theorem initOcr_progress {s : State} {k : Fin 4} (hseq : s.seq = .iOcr k) : Progress s (initOcr k s) := by
  have hleft := stepsLeft_at hseq
  simp only [labelSteps] at hleft
  refine exchange_progress (fun b => ?_)
  split
  · refine goto_progress rfl (endedCount_xfer ..) ?_
    simp only [labelSteps, xfer_params]; omega
  · refine initDecideCapacity_progress (endedCount_xfer ..) ?_
    simp only [xfer_params]; omega

/-! ## The labels of READ_BLOCK -/

theorem readSelect_progress {s : State} {a : Word32} (hseq : s.seq = .rbSel a) : Progress s (readSelect a s) := by
  refine goto_progress rfl (by simp) ?_
  rw [stepsLeft_at hseq]
  simp only [labelSteps, framerSteps, stepsAfterResponse, csSet_params]; omega

theorem readToken_progress {s : State} (hseq : s.seq = .rbToken) : Progress s (readToken s) := by
  have hleft := stepsLeft_at hseq
  simp only [labelSteps] at hleft
  refine withRead_progress (fun n hn => exchange_progress (fun b => ?_))
  obtain rfl := value_of_readRegister hn
  have hended := endedCount_xfer filler s
  split
  · refine goto_progress rfl hended ?_
    simp only [labelSteps]; omega
  · split
    · next hlt =>
      refine stay_progress (hseq ▸ rfl) (xfer_seq filler s) hended ?_
      simp only [hseq, labelSteps, xfer_params, Reg.value_written] at hlt ⊢; omega
    · exact raise_progress ..

theorem readData_progress {s : State} {k : Fin 512} (hseq : s.seq = .rbData k) : Progress s (readData k s) := by
  have hleft := stepsLeft_at hseq
  simp only [labelSteps] at hleft
  refine exchange_progress (fun b => withRead_progress (fun m _ => ?_))
  split
  all_goals
    refine goto_progress rfl (endedCount_xfer ..) ?_
    simp only [labelSteps]; omega

theorem readCrcByte_progress {s : State} {k : Fin 2} (hseq : s.seq = .rbCrc k) : Progress s (readCrcByte k s) := by
  have hleft := stepsLeft_at hseq
  simp only [labelSteps] at hleft
  refine exchange_progress (fun b => ?_)
  split
  all_goals
    refine goto_progress rfl (endedCount_xfer ..) ?_
    simp only [labelSteps]; omega

/-! ## The labels of WRITE_BLOCK -/

theorem writeSelect_progress {s : State} {a : Word32} (hseq : s.seq = .wbSel a) : Progress s (writeSelect a s) := by
  refine goto_progress rfl (by simp) ?_
  rw [stepsLeft_at hseq]
  simp only [labelSteps, framerSteps, stepsAfterResponse, csSet_params]; omega

theorem writeGap_progress {s : State} {k : Nat} (hseq : s.seq = .wbGap k) : Progress s (writeGap k s) := by
  have hleft := stepsLeft_at hseq
  simp only [labelSteps] at hleft
  refine exchange_progress (fun b => ?_)
  split
  · next hlt =>
    refine goto_progress rfl (endedCount_xfer ..) ?_
    simp only [labelSteps, xfer_params] at hlt ⊢; omega
  · refine goto_progress rfl (endedCount_xfer ..) ?_
    simp only [labelSteps, xfer_params]; omega

theorem writeToken_progress {s : State} (hseq : s.seq = .wbToken) : Progress s (writeToken s) := by
  refine exchange_progress (fun b => goto_progress rfl (endedCount_xfer ..) ?_)
  rw [stepsLeft_at hseq]
  simp [labelSteps]

theorem writeData_progress {s : State} {k : Fin 512} (hseq : s.seq = .wbData k) : Progress s (writeData k s) := by
  have hleft := stepsLeft_at hseq
  simp only [labelSteps] at hleft
  refine withRead_progress (fun out _ => exchange_progress (fun b => ?_))
  split
  all_goals
    refine goto_progress rfl (endedCount_xfer ..) ?_
    simp only [labelSteps, xfer_params]; omega

theorem writeCrcByte_progress {s : State} {k : Fin 2} (hseq : s.seq = .wbCrc k) : Progress s (writeCrcByte k s) := by
  have hleft := stepsLeft_at hseq
  simp only [labelSteps] at hleft
  rw [writeCrcByte]
  generalize (if k.val = 0 then s.params.crcPlaceholder0 else s.params.crcPlaceholder1) = out
  refine exchange_progress (fun b => ?_)
  split
  all_goals
    refine goto_progress rfl (endedCount_xfer ..) ?_
    simp only [labelSteps, xfer_params]; omega

theorem writeResponse_progress {s : State} (hseq : s.seq = .wbResp) : Progress s (writeResponse s) := by
  have hleft := stepsLeft_at hseq
  simp only [labelSteps] at hleft
  refine exchange_progress (fun b => ?_)
  split
  · refine goto_progress rfl (endedCount_xfer filler s) ?_
    simp only [labelSteps, xfer_params, Reg.value_written]; omega
  · exact raise_progress ..

theorem writeBusy_progress {s : State} (hseq : s.seq = .wbBusy) : Progress s (writeBusy s) := by
  have hleft := stepsLeft_at hseq
  simp only [labelSteps] at hleft
  refine withRead_progress (fun n hn => exchange_progress (fun b => ?_))
  obtain rfl := value_of_readRegister hn
  have hended := endedCount_xfer filler s
  split
  · refine goto_progress rfl hended ?_
    simp only [labelSteps]; omega
  · split
    · next hlt =>
      refine stay_progress (hseq ▸ rfl) (xfer_seq filler s) hended ?_
      simp only [hseq, labelSteps, xfer_params, Reg.value_written] at hlt ⊢; omega
    · refine goto_progress rfl hended ?_
      simp only [labelSteps]; omega

/-! ## A whole operation -/

/-- One step of an operation ends it, goes on with fewer steps left, or meets R38's fault. -/
theorem tick_progress {s : State} (hrun : s.seq.running = true) : Progress s (tick s) := by
  rw [tick]
  split
  next hseq => rw [hseq] at hrun; cases hrun
  next hseq => rw [hseq] at hrun; cases hrun
  · exact complete_progress ..
  next hseq => exact framerTx_progress hseq
  next hseq => exact framerRx_progress hseq
  next hseq => exact initDeselect_progress hseq
  next hseq => exact initDummy_progress hseq
  next hseq => exact initSelect_progress hseq
  next hseq => exact initCmd8Tail_progress hseq
  next hseq => exact initOcr_progress hseq
  · exact complete_progress ..
  next hseq => exact readSelect_progress hseq
  next hseq => exact readToken_progress hseq
  next hseq => exact readData_progress hseq
  next hseq => exact readCrcByte_progress hseq
  · exact withRead_progress (fun data _ => complete_progress ..)
  next hseq => exact writeSelect_progress hseq
  next hseq => exact writeGap_progress hseq
  next hseq => exact writeToken_progress hseq
  next hseq => exact writeData_progress hseq
  next hseq => exact writeCrcByte_progress hseq
  next hseq => exact writeResponse_progress hseq
  next hseq => exact writeBusy_progress hseq
  · exact complete_progress ..

/-- Under the invariant a step ends the operation or goes on: no label is stuck. -/
theorem tick_ends_or_goesOn {s : State} (hinv : BlockInv s) (hrun : s.seq.running = true) :
    JustEnded (tick s) ∨ OperationGoesOn s (tick s) := by
  obtain hend | hon | ⟨f, hstuck⟩ := tick_progress hrun
  · exact .inl hend
  · exact .inr hon
  · have hpos := (tick_keeps_blockInv hinv).position
    rw [hstuck] at hpos
    exact hpos.elim

/-- A running operation comes to its end within the steps left and the ending step, and until then it runs without an End. -/
theorem runFor_reaches_end {s : State} (hinv : BlockInv s) (hrun : s.seq.running = true) :
    ∃ n ≤ stepsLeft s + 1, JustEnded (runFor n s) ∧
      ∀ m < n, (runFor m s).seq.running = true ∧ endedCount (runFor m s).history = endedCount s.history := by
  induction hleft : stepsLeft s using Nat.strong_induction_on generalizing s with
  | h left ih =>
    obtain hend | ⟨hrun', hended, hfewer⟩ := tick_ends_or_goesOn hinv hrun
    · refine ⟨1, by omega, (runFor_running 0 hrun).symm ▸ hend, fun m hm => ?_⟩
      obtain rfl := Nat.lt_one_iff.mp hm
      exact ⟨hrun, rfl⟩
    · obtain ⟨n, hn, hend, hbefore⟩ := ih _ (hleft ▸ hfewer) (tick_keeps_blockInv hinv) hrun' rfl
      refine ⟨n + 1, by omega, (runFor_running n hrun).symm ▸ hend, fun m hm => ?_⟩
      cases m with
      | zero => exact ⟨hrun, rfl⟩
      | succ m =>
        rw [runFor_running m hrun, ← hended]
        exact hbefore m (by omega)

/-! ## The model's budget -/

/-- The poll of INIT and what follows it, against the iterations' share of the budget. -/
theorem initPollSteps_le {p : Params} {n : Nat} (h : n ≤ p.ocrPollLimit) :
    initPollSteps p n ≤ 2 * p.ocrPollLimit * commandBudget p + 2 * commandBudget p + 5 := by
  have hiterations : n * (2 * commandBudget p) ≤ 2 * p.ocrPollLimit * commandBudget p :=
    (Nat.mul_le_mul_right _ h).trans_eq (by ring)
  rw [initPollSteps]; omega

theorem framerSteps_le (f : Framer) (s : State) : framerSteps f s ≤ commandBudget s.params := by
  cases f with
  | tx k => exact Nat.sub_le ..
  | rx => rw [framerSteps, commandBudget]; omega

/-- The model's own budget is more than the steps any label leaves (notes/assumptions/19.md). -/
theorem stepsLeft_lt_budget (s : State) : stepsLeft s < operationBudget s.params := by
  have hbudget : operationBudget s.params = 2000 + s.params.powerupDummyBytes + s.params.writeGapBytes +
      s.params.tokenPollLimit + s.params.busyPollLimit +
      (2 * s.params.ocrPollLimit * commandBudget s.params + 6 * commandBudget s.params) := by
    rw [operationBudget, commandBudget]; ring
  have hstart := initPollSteps_le (p := s.params) (Nat.sub_le s.params.ocrPollLimit 1)
  have hpoll := initPollSteps_le (p := s.params) (Nat.sub_le s.params.ocrPollLimit s.cntPoll.value)
  rw [stepsLeft]
  cases s.seq with
  | cmd c f =>
    have hframer := framerSteps_le f s
    cases c <;> simp only [labelSteps, stepsAfterResponse, initPollStart] <;> omega
  | _ => simp only [labelSteps, initPollStart]; omega

end Sys2Proof.Machine

namespace Sys2Proof.Proofs

open Sys2Proof Sys2Proof.Machine

/-- Settles O52: each step lowers `stepsLeft` until the one that ends the operation, and `stepsLeft` is below the budget. -/
theorem everyOperationEnds : Obligations.EveryOperationEnds := by
  intro s hinv hrun
  obtain ⟨n, hn, ⟨hidle, hend⟩, hbefore⟩ := runFor_reaches_end hinv hrun
  have hpos := (runFor_keeps (P := BlockInv) (fun _ => tick_keeps_blockInv) n hinv).position
  rw [hidle] at hpos
  obtain ⟨hhigh, -⟩ := hpos
  exact ⟨n, hbefore, hidle, hhigh, hend,
    runToIdle_of_runFor rfl (hn.trans (stepsLeft_lt_budget s)) (by rw [hidle]; rfl)⟩

end Sys2Proof.Proofs

/-!
PROOFS, the encodings: the decoder against the encoder, both ways (O1, O2), the spec's own words (O3), what spells no operation (O4),
and the loaded frame (O6). `decodeFrame` and `decodeRequest` each have one lemma that says what they decode; the theorems cite it.
-/

/-! ## What the decoder accepts -/

namespace Sys2Proof.Machine

/-- The stop bit of every frame is 1 (R57). -/
theorem crcStopByte_getLsbD_zero (crc : CrcValue) : (crcStopByte crc).getLsbD 0 = true := by
  rw [crcStopByte, BitVec.getLsbD_append]; rfl

/-- A frame with CMD17's first byte and the stop bit is CMD17, whatever its CRC field is (notes/assumptions/6.md). -/
theorem decodeFrame_cmd17 (f1 f2 f3 f4 : Byte) {f5 : Byte} (h : f5.getLsbD 0 = true) :
    decodeFrame [0x51#8, f1, f2, f3, f4, f5] = .ok (.cmd17 (wordBe32 f1 f2 f3 f4)) := by
  simp [decodeFrame, h]

theorem decodeFrame_cmd24 (f1 f2 f3 f4 : Byte) {f5 : Byte} (h : f5.getLsbD 0 = true) :
    decodeFrame [0x58#8, f1, f2, f3, f4, f5] = .ok (.cmd24 (wordBe32 f1 f2 f3 f4)) := by
  simp [decodeFrame, h]

/-- What a frame can decode to: one of the six commands with a fixed frame, or CMD17 or CMD24 with the argument it spells. -/
theorem decodeFrame_cases {bytes : List Byte} {i : Instr} (h : decodeFrame bytes = .ok i) :
    (encode i = .frame bytes ∧ (i = .cmd0 ∨ i = .cmd8 ∨ i = .cmd16 ∨ i = .cmd55 ∨ i = .acmd41 ∨ i = .cmd58)) ∨
    ∃ f1 f2 f3 f4 f5, f5.getLsbD 0 = true ∧
      ((bytes = [0x51#8, f1, f2, f3, f4, f5] ∧ i = .cmd17 (wordBe32 f1 f2 f3 f4)) ∨
        (bytes = [0x58#8, f1, f2, f3, f4, f5] ∧ i = .cmd24 (wordBe32 f1 f2 f3 f4))) := by
  unfold decodeFrame at h
  split at h
  · next f0 f1 f2 f3 f4 f5 =>
    split_ifs at h with h0 h8 h16 h55 h41 h58 h17 h24
    · cases h; rw [h0]; exact .inl ⟨by decide +kernel, by simp⟩
    · cases h; rw [h8]; exact .inl ⟨by decide +kernel, by simp⟩
    · cases h; rw [h16]; exact .inl ⟨by decide +kernel, by simp⟩
    · cases h; rw [h55]; exact .inl ⟨by decide +kernel, by simp⟩
    · cases h; rw [h41]; exact .inl ⟨by decide +kernel, by simp⟩
    · cases h; rw [h58]; exact .inl ⟨by decide +kernel, by simp⟩
    · cases h; obtain ⟨rfl, hstop⟩ := h17; exact .inr ⟨f1, f2, f3, f4, f5, hstop, .inl ⟨rfl, rfl⟩⟩
    · cases h; obtain ⟨rfl, hstop⟩ := h24; exact .inr ⟨f1, f2, f3, f4, f5, hstop, .inr ⟨rfl, rfl⟩⟩
  · cases h

/-- The index byte of SEND_COMMAND gives the index back (R70). -/
theorem decodeSendCommand_encoded (index : CmdIndex) (arg : Word32) :
    decodeSendCommand (index.setWidth 8 :: bytesBe32 arg) = .ok (.sendCommand index arg) := by
  have hlt := index.isLt
  have hsame : (index.setWidth 8).setWidth 6 = index := BitVec.setWidth_setWidth_of_le _ (by decide)
  have hnat : (index.setWidth 8).toNat < 64 := by rw [BitVec.toNat_setWidth]; omega
  simp only [bytesBe32, decodeSendCommand]
  rw [if_pos hnat, hsame, wordBe32_of_bytes]

theorem decodeReadBlock_encoded (index : Word32) : decodeReadBlock (bytesBe32 index) = .ok (.readBlock index) := by
  simp only [bytesBe32, decodeReadBlock, wordBe32_of_bytes]

theorem decodeWriteBlock_encoded (index : Word32) {data : List Byte} (h : data.length = 512) :
    decodeWriteBlock (bytesBe32 index ++ data) = .ok (.writeBlock index data) := by
  simp only [bytesBe32, List.cons_append, List.nil_append, decodeWriteBlock, wordBe32_of_bytes]
  rw [if_pos h]

/-- A SEND_COMMAND's operands decode only from their one encoding. -/
theorem encode_of_decodeSendCommand {operands : List Byte} {i : Instr} (h : decodeSendCommand operands = .ok i) :
    i.wellFormed = true ∧ encode i = .request (0x02#8 :: operands) := by
  unfold decodeSendCommand at h
  split at h
  · next b a3 a2 a1 a0 =>
    split at h
    · next hlt =>
      cases h
      have hsame : (b.setWidth 6).setWidth 8 = b := by
        apply BitVec.eq_of_toNat_eq
        rw [BitVec.toNat_setWidth, BitVec.toNat_setWidth]; omega
      exact ⟨rfl, by rw [encode, bytesBe32_of_word, hsame]⟩
    · cases h
  · cases h

theorem encode_of_decodeReadBlock {operands : List Byte} {i : Instr} (h : decodeReadBlock operands = .ok i) :
    i.wellFormed = true ∧ encode i = .request (0x04#8 :: operands) := by
  unfold decodeReadBlock at h
  split at h
  · cases h; exact ⟨rfl, by rw [encode, bytesBe32_of_word]⟩
  · cases h

theorem encode_of_decodeWriteBlock {operands : List Byte} {i : Instr} (h : decodeWriteBlock operands = .ok i) :
    i.wellFormed = true ∧ encode i = .request (0x05#8 :: operands) := by
  unfold decodeWriteBlock at h
  split at h
  · split at h
    · next hlen => cases h; exact ⟨beq_iff_eq.mpr hlen, by rw [encode, bytesBe32_of_word]; rfl⟩
    · cases h
  · cases h

/-- A request decodes only from its one encoding (R70, R72). -/
theorem encode_of_decodeRequest {bytes : List Byte} {i : Instr} (h : decodeRequest bytes = .ok i) :
    i.wellFormed = true ∧ encode i = .request bytes := by
  cases bytes with
  | nil => cases h
  | cons op operands =>
    simp only [decodeRequest] at h
    split_ifs at h with h1 h2 h3 hnone h4 h5
    · cases h; exact ⟨rfl, by rw [encode, h1]⟩
    · rw [h2]; exact encode_of_decodeSendCommand h
    · cases h; exact ⟨rfl, by rw [encode, h3, hnone]⟩
    · rw [h4]; exact encode_of_decodeReadBlock h
    · rw [h5]; exact encode_of_decodeWriteBlock h

/-! ## What the decoder rejects (R72) -/

theorem decodeRequest_unknownCode {op : Byte} (operands : List Byte) (h : op.toNat = 0 ∨ 5 < op.toNat) :
    decodeRequest (op :: operands) = .error .unknownOperation := by
  have hne : ∀ c : Byte, 1 ≤ c.toNat → c.toNat ≤ 5 → op ≠ c := by
    rintro c h1 h5 rfl; omega
  rw [decodeRequest, if_neg (hne _ (by decide) (by decide)), if_neg (hne _ (by decide) (by decide)),
    if_neg (hne _ (by decide) (by decide)), if_neg (hne _ (by decide) (by decide)), if_neg (hne _ (by decide) (by decide))]

theorem decodeSendCommand_indexAbove63 {index : Byte} (argument : List Byte) (h : 63 < index.toNat) :
    ∃ e, decodeSendCommand (index :: argument) = .error e := by
  unfold decodeSendCommand
  split
  · next heq =>
    cases heq
    exact ⟨_, if_neg (by omega)⟩
  · exact ⟨_, rfl⟩

theorem decodeWriteBlock_dataLength {index data : List Byte} (hindex : index.length = 4) (hdata : data.length ≠ 512) :
    decodeWriteBlock (index ++ data) = .error .dataLength := by
  match index, hindex with
  | [i3, i2, i1, i0], _ => exact if_neg hdata

theorem fetch_request {s : State} {bytes : List Byte} {rest : List (List Byte)} (hidle : s.seq = .idle)
    (hreq : s.requests = bytes :: rest) : fetch s = .code (.request bytes) { s with requests := rest } := by
  simp only [fetch, hidle, hreq]

/-- A request the decoder rejects is refused as bad_request (R72, R134). -/
theorem step_badRequest {s : State} {bytes : List Byte} {rest : List (List Byte)} {e : DecodeError} (hidle : s.seq = .idle)
    (hreq : s.requests = bytes :: rest) (h : decodeRequest bytes = .error e) : step s = .refused .badRequest := by
  simp only [step, fetch_request hidle hreq, decode, h]

/-- The wire command of an issuer is encoded as the frame of the issuer's index and argument (R58). -/
theorem encode_wireCommand {c : Issuer} {i : Instr} (h : c.wireCommand = some i) : encode i = .frame (frameBytes c.index c.arg) := by
  cases c with
  | host index arg => cases h
  | _ => cases h; rfl

end Sys2Proof.Machine

namespace Sys2Proof.Proofs

open Sys2Proof Sys2Proof.Machine

/-- Settles O1: six frames are fixed words, CMD17 and CMD24 decode by their first byte and stop bit, and each request by its code and
operands. -/
theorem decodeOfEncodeIsTheInstruction : Obligations.DecodeOfEncodeIsTheInstruction := by
  intro i hwf
  cases i with
  | cmd0 => decide +kernel
  | cmd8 => decide +kernel
  | cmd16 => decide +kernel
  | cmd17 arg =>
    have h := decodeFrame_cmd17 (arg.extractLsb' 24 8) (arg.extractLsb' 16 8) (arg.extractLsb' 8 8) (arg.extractLsb' 0 8)
      (crcStopByte_getLsbD_zero (frameCrc 17#6 arg))
    rwa [wordBe32_of_bytes] at h
  | cmd24 arg =>
    have h := decodeFrame_cmd24 (arg.extractLsb' 24 8) (arg.extractLsb' 16 8) (arg.extractLsb' 8 8) (arg.extractLsb' 0 8)
      (crcStopByte_getLsbD_zero (frameCrc 24#6 arg))
    rwa [wordBe32_of_bytes] at h
  | cmd55 => decide +kernel
  | acmd41 => decide +kernel
  | cmd58 => decide +kernel
  | crc7 data => rfl
  | sendCommand index arg => exact decodeSendCommand_encoded index arg
  | init => rfl
  | readBlock index => exact decodeReadBlock_encoded index
  | writeBlock index data => exact decodeWriteBlock_encoded index (beq_iff_eq.mp hwf)

/-- Settles O2: a request that decodes is the encoding, and so is a frame, except for the CRC field of CMD17 and CMD24. -/
theorem decodedBytesAreTheEncoding : Obligations.DecodedBytesAreTheEncoding := by
  refine ⟨fun bytes i h => encode_of_decodeRequest h, fun bytes i h => ?_⟩
  obtain ⟨hfixed, hcmd⟩ | ⟨f1, f2, f3, f4, f5, hstop, ⟨rfl, rfl⟩ | ⟨rfl, rfl⟩⟩ := decodeFrame_cases h
  · have hlast : i.wellFormed = true ∧ ∃ last, bytes.drop 5 = [last] ∧ last.getLsbD 0 = true := by
      obtain rfl | rfl | rfl | rfl | rfl | rfl := hcmd
      all_goals
        cases hfixed
        exact ⟨rfl, _, rfl, crcStopByte_getLsbD_zero _⟩
    obtain ⟨hwf, last, hdrop, hbit⟩ := hlast
    exact ⟨hwf, bytes, last, hfixed, rfl, hdrop, hbit, .inl rfl⟩
  · refine ⟨rfl, _, f5, rfl, ?_, rfl, hstop, .inr (.inl ⟨_, rfl⟩)⟩
    rw [frameBytes, frameHead, bytesBe32_of_word]; rfl
  · refine ⟨rfl, _, f5, rfl, ?_, rfl, hstop, .inr (.inr ⟨_, rfl⟩)⟩
    rw [frameBytes, frameHead, bytesBe32_of_word]; rfl

/-- Settles O3: each word is decoded by evaluation. -/
theorem specWordsDecodeToTheirRows : Obligations.SpecWordsDecodeToTheirRows := by
  refine ⟨by decide, by decide, by decide, by decide, by decide, by decide, by decide, by decide, rfl, rfl, rfl, rfl, ?_⟩
  decide +kernel

/-- Settles O4: the decoder rejects the code, the index and the data length, and `step` refuses what it rejects. -/
theorem badRequestsAreRefused : Obligations.BadRequestsAreRefused := by
  rintro s bytes rest hidle hreq (⟨op, operands, rfl, hop⟩ | ⟨index, argument, rfl, hindex⟩ | ⟨index, data, rfl, hlen, hdata⟩)
  · exact step_badRequest hidle hreq (decodeRequest_unknownCode operands hop)
  · obtain ⟨e, he⟩ := decodeSendCommand_indexAbove63 argument hindex
    exact step_badRequest hidle hreq he
  · exact step_badRequest hidle hreq (decodeWriteBlock_dataLength hlen hdata)

/-- Settles O6: the loaded frame is `frameOf` of the issuer, whose bytes are `frameBytes`. -/
theorem loadedFrameIsTheEncodedCommand : Obligations.LoadedFrameIsTheEncodedCommand := by
  intro s c
  refine ⟨frameOf c.index c.arg, loadFrame_frame c s, commandByte_toNat _, ?_, fun i hi => encode_wireCommand hi⟩
  rintro index arg rfl
  exact ⟨commandByte_toNat _, rfl⟩

end Sys2Proof.Proofs

/-!
PROOFS, the machine: the invariant at reset and under every step (O49, O50, O51), what a step is (O54, O55), and that the steps of an
operation come to its meaning (O53). An accepted request starts a running operation that meets the invariant, and every run keeps it.
-/

/-! ## The invariant where an operation begins -/

namespace Sys2Proof.Machine

/-- The requests still to come are no part of the invariant. -/
theorem blockInv_requests {s : State} (h : BlockInv s) (rest : List (List Byte)) : BlockInv { s with requests := rest } := by
  refine blockInv_of _ _ ?_ h.balance rfl ?_
  · obtain ⟨params, buf, r1, frame, cntResp, cntPoll, cntToken, cntBusy, result, ready, pin⟩ := h.registersOk
    exact ⟨params, buf, r1, frame, cntResp, cntPoll, cntToken, cntBusy, result, ready, pin⟩
  · have hpos := h.position
    cases hseq : s.seq with
    | cmd c f =>
      rw [hseq] at hpos
      obtain ⟨hissuer, hframer⟩ := hpos
      refine ⟨issuerOk_of_same hissuer rfl rfl rfl rfl rfl rfl rfl, ?_⟩
      cases f <;> exact hframer
    | _ => rw [hseq] at hpos; exact hpos

/-- In IDLE every operation that has begun has ended (R150). -/
theorem blockInv_idle_balanced {s : State} (h : BlockInv s) (hidle : s.seq = .idle) : Balanced s 0 := by
  have hbal := h.balance
  rwa [hidle] at hbal

theorem blockInv_idle_deselected {s : State} (h : BlockInv s) (hidle : s.seq = .idle) : s.csLevel = .high := by
  have hpos := h.position
  rw [hidle] at hpos
  exact hpos.1

theorem registersOk_begun {s : State} (h : RegistersOk s) (i : Instr) : RegistersOk (s.log (.begun i)) := by
  obtain ⟨params, buf, r1, frame, cntResp, cntPoll, cntToken, cntBusy, result, ready, pin⟩ := h
  exact ⟨params, buf, r1, frame, cntResp, cntPoll, cntToken, cntBusy, result, ready, pin⟩

theorem balanced_begun {s : State} (h : Balanced s 0) (i : Instr) : Balanced (s.log (.begun i)) 1 := by
  simpa [Balanced] using h

/-- What an operation begins with keeps the invariant, where what holds at its first label is set up. -/
theorem begin_keeps {s : State} {i : Instr} {l : Seq} (h : BlockInv s) (hidle : s.seq = .idle) (hrun : l.running = true)
    (hpos : labelOk l ((s.log (.begun i)).goto l)) : BlockInv ((s.log (.begun i)).goto l) :=
  goto_keeps (registersOk_begun h.registersOk i) (balanced_begun (blockInv_idle_balanced h hidle) i) hrun hpos

theorem initEntry_keeps {s : State} (h : BlockInv s) (hidle : s.seq = .idle) : BlockInv (initEntry (s.log (.begun .init))) := by
  have hcs := blockInv_idle_deselected h hidle
  refine goto_keeps ?_ (balanced_begun (blockInv_idle_balanced h hidle) .init) rfl ⟨hcs, rfl, rfl, by simp⟩
  obtain ⟨params, buf, r1, frame, cntResp, cntPoll, cntToken, cntBusy, result, ready, pin⟩ := h.registersOk
  exact ⟨params, buf, r1, frame, cntResp, cntPoll, cntToken, cntBusy, result, nofun, pin⟩

theorem beginWrite_keeps {s : State} {index a : Word32} {data : List Byte} (h : BlockInv s) (hidle : s.seq = .idle)
    (hready : s.initState = .ready) (ha : addressOk s.cap a) (hdata : data.length = blockSize) :
    BlockInv ({ s.log (.begun (.writeBlock index data)) with buf := cellsFrom 0 data }.goto (.wbSel a)) := by
  have hcs := blockInv_idle_deselected h hidle
  refine goto_keeps ?_ (balanced_begun (blockInv_idle_balanced h hidle) (.writeBlock index data)) rfl
    ⟨hcs, hready, ha, filled_cellsFrom hdata⟩
  obtain ⟨params, buf, r1, frame, cntResp, cntPoll, cntToken, cntBusy, result, ready, pin⟩ := h.registersOk
  exact ⟨params, cellsFrom_wf hdata, r1, frame, cntResp, cntPoll, cntToken, cntBusy, result, ready, pin⟩

/-! ## The invariant under a step -/

theorem runToIdle_keeps {s : State} (h : BlockInv s) : BlockInv (runToIdle s) :=
  runFor_keeps (P := BlockInv) (fun _ => tick_keeps_blockInv) _ h

/-- A request is refused as busy, or its operation runs from a state that meets the invariant. -/
theorem request_safe {s : State} (op : Instr) (setUp : State → State)
    (h : s.seq = .idle → BlockInv (setUp (s.log (.begun op)))) : Safe (request op setUp s) := by
  rw [request]
  split
  · next hidle => exact runToIdle_keeps (h hidle)
  · trivial

theorem issue_safe {s : State} (c : Issuer) (h : BlockInv s) : Safe (issue c s) := by
  rw [issue]
  split
  · exact runCommandFor_keeps (P := BlockInv) (fun _ => tick_keeps_blockInv) c _ h
  · trivial

/-- A transfer that has an address is accepted: IDLE, Ready, and the address is the one its class gives (R113 to R115). -/
theorem transferAddress_ok {s : State} {index a : Word32} (h : transferAddress index s = .ok a) :
    s.seq = .idle ∧ s.initState = .ready ∧ wireAddress s.cap index = .ok a := by
  rw [transferAddress] at h
  split_ifs at h with hidle hready
  exact ⟨hidle, hready, h⟩

theorem execReadBlock_safe {s : State} (index : Word32) (h : BlockInv s) : Safe (execReadBlock index s) := by
  rw [execReadBlock]
  split
  · next a ha =>
    obtain ⟨hidle, hready, haddr⟩ := transferAddress_ok ha
    have hcs := blockInv_idle_deselected h hidle
    exact request_safe _ _ fun _ => begin_keeps h hidle rfl ⟨hcs, hready, wireAddress_addressOk haddr⟩
  · trivial

theorem execWriteBlock_safe {s : State} (index : Word32) (data : List Byte) (h : BlockInv s) :
    Safe (execWriteBlock index data s) := by
  rw [execWriteBlock]
  split
  · next hdata =>
    split
    · next a ha =>
      obtain ⟨hidle, hready, haddr⟩ := transferAddress_ok ha
      exact request_safe _ _ fun _ => beginWrite_keeps h hidle hready (wireAddress_addressOk haddr) hdata
    · trivial
  · split <;> trivial

/-- Every instruction keeps the invariant or is refused. -/
theorem exec_safe {s : State} (i : Instr) (h : BlockInv s) : Safe (exec i s) := by
  have hat : s.seq = .idle → s.csLevel = .high ∧ capSettled s := fun hidle =>
    ⟨blockInv_idle_deselected h hidle, blockInv_idle_capSettled h hidle⟩
  cases i with
  | crc7 data =>
    rw [exec, execCrc7]
    exact request_safe _ _ fun hidle => begin_keeps (l := .cRun data) h hidle rfl (hat hidle)
  | sendCommand index arg =>
    rw [exec, execSendCommand]
    exact request_safe _ _ fun hidle =>
      begin_keeps (l := .cmd (.host index arg) (.tx 0)) h hidle rfl ⟨hat hidle, fun hne => absurd rfl hne⟩
  | init => exact request_safe _ _ fun hidle => initEntry_keeps h hidle
  | readBlock index => exact execReadBlock_safe index h
  | writeBlock index data => exact execWriteBlock_safe index data h
  | _ => exact issue_safe _ h

/-- The state an instruction's meaning starts from is the state of the step, without the request it takes. -/
theorem fetch_code {s start : State} {c : Code} (h : fetch s = .code c start) :
    start = s ∨ ∃ rest, start = { s with requests := rest } := by
  unfold fetch at h
  split at h
  · cases h
  · split at h
    · cases h
    · cases h; exact .inr ⟨_, rfl⟩
  · split_ifs at h
    split at h
    · cases h; exact .inl rfl
    · cases h
  · cases h

/-- A step halts only where the sequencer is stuck. -/
theorem fetch_halted {s : State} {f : Fault} (h : fetch s = .halted f) : s.seq = .stuck f := by
  unfold fetch at h
  split at h
  · next hseq => cases h; exact hseq
  · split at h <;> cases h
  · split_ifs at h
    split at h <;> cases h
  · cases h

theorem blockInv_not_stuck {s : State} (h : BlockInv s) (f : Fault) : s.seq ≠ .stuck f := by
  intro hseq
  have hpos := h.position
  rw [hseq] at hpos
  exact hpos

/-- Every step keeps the invariant or refuses a request; none faults. -/
theorem step_safe {s : State} (h : BlockInv s) : Safe (step s) := by
  rw [step]
  split
  · next c start hfetch =>
    have hstart : BlockInv start := by
      obtain rfl | ⟨rest, rfl⟩ := fetch_code hfetch
      · exact h
      · exact blockInv_requests h rest
    split
    · exact exec_safe _ hstart
    · trivial
  · exact tick_keeps_blockInv h
  · exact h
  · next f hfetch => exact blockInv_not_stuck h f (fetch_halted hfetch)

/-! ## What a step is -/

/-- A wire command means the issue of its issuer's command (R58). -/
theorem exec_wireCommand {c : Issuer} {i : Instr} (h : c.wireCommand = some i) (s : State) : exec i s = issue c s := by
  cases c with
  | host index arg => cases h
  | _ => cases h; rfl

/-- Every wire command's encoding decodes to it: none has a data operand of a wrong length. -/
theorem decode_encode_wireCommand {c : Issuer} {i : Instr} (h : c.wireCommand = some i) : decode (encode i) = .ok i := by
  refine Proofs.decodeOfEncodeIsTheInstruction i ?_
  cases c with
  | host index arg => cases h
  | _ => cases h; rfl

theorem step_wireCommand {s : State} {c : Issuer} {i : Instr} (h : c.wireCommand = some i) (hseq : s.seq = .cmd c (.tx 0)) :
    step s = exec i s := by
  have hfetch : fetch s = .code (encode i) s := by simp [fetch, hseq, h]
  simp only [step, hfetch, decode_encode_wireCommand h]

/-- Wherever no wire command begins, a running operation does the primitive of its label. -/
theorem step_primitive {s : State} (hrun : s.seq.running = true)
    (hno : ∀ c i, c.wireCommand = some i → s.seq ≠ .cmd c (.tx 0)) : step s = .next (tick s) := by
  have hfetch : fetch s = .primitive := by
    unfold fetch
    split
    · next hseq => rw [hseq] at hrun; cases hrun
    · next hseq => rw [hseq] at hrun; cases hrun
    · next c k hseq =>
      split
      · next hk =>
        obtain rfl : k = 0 := Fin.ext hk
        split
        · next i hwire => exact absurd hseq (hno c i hwire)
        · rfl
      · rfl
    · rfl
  simp only [step, hfetch]

/-! ## Steps and primitives -/

/-- Running a command is running the sequencer, for as many steps as the command takes; at least one from its first byte. -/
theorem runCommandFor_eq_runFor (c : Issuer) (n : Nat) (s : State) : ∃ m, runCommandFor c n s = runFor m s := by
  induction n generalizing s with
  | zero => exact ⟨0, rfl⟩
  | succ n ih =>
    cases hin : s.seq.inCommand c with
    | true =>
      obtain ⟨m, hm⟩ := ih (tick s)
      exact ⟨m + 1, by rw [runCommandFor_inside n hin, hm, runFor_running m (running_of_inCommand hin)]⟩
    | false => exact ⟨0, runCommandFor_left _ hin⟩

/-- One step of the machine is some primitives of the operation in progress, and not none. -/
theorem step_running {s : State} (hrun : s.seq.running = true) : ∃ m, step s = .next (runFor m (tick s)) := by
  by_cases hcmd : ∃ c i, c.wireCommand = some i ∧ s.seq = .cmd c (.tx 0)
  · obtain ⟨c, i, hwire, hseq⟩ := hcmd
    have hin : s.seq.inCommand c = true := by simp [hseq, Seq.inCommand]
    obtain ⟨m, hm⟩ := runCommandFor_eq_runFor c (6 + s.params.respPollLimit) (tick s)
    have hbudget : commandBudget s.params = 6 + s.params.respPollLimit + 1 := by rw [commandBudget]; omega
    exact ⟨m, by rw [step_wireCommand hwire hseq, exec_wireCommand hwire, issue_start hseq, runCommand, hbudget,
      runCommandFor_inside _ hin, hm]⟩
  · exact ⟨0, step_primitive hrun fun c i hwire hseq => hcmd ⟨c, i, hwire, hseq⟩⟩

theorem core_run_next {s t : State} (k : Nat) (h : step s = .next t) :
    Host.Core.run Sys2Proof.core (k + 1) s = Host.Core.run Sys2Proof.core k t := by
  have hcore : Sys2Proof.core.step s = .next t := h
  simp only [Host.Core.run, hcore]

/-- A run that has stopped within n primitives is reached by some number of steps of the machine. -/
theorem core_run_reaches {n : Nat} {s : State} (hstop : (runFor n s).seq.running = false) :
    ∃ k, Host.Core.run Sys2Proof.core k s = .next (runFor n s) := by
  induction n using Nat.strong_induction_on generalizing s with
  | h n ih =>
    cases hrun : s.seq.running with
    | false => exact ⟨0, by rw [runFor_stopped n hrun]; rfl⟩
    | true =>
      obtain ⟨m, hstep⟩ := step_running hrun
      cases n with
      | zero => rw [runFor_zero, hrun] at hstop; cases hstop
      | succ n =>
        rw [runFor_running n hrun] at hstop ⊢
        obtain ⟨k, hk⟩ : ∃ k, Host.Core.run Sys2Proof.core k (runFor m (tick s)) = .next (runFor n (tick s)) := by
          obtain hle | hlt := Nat.le_total m n
          · obtain ⟨j, rfl⟩ := Nat.exists_eq_add_of_le hle
            rw [runFor_add] at hstop ⊢
            exact ih j (by omega) hstop
          · obtain ⟨j, rfl⟩ := Nat.exists_eq_add_of_le hlt
            exact ⟨0, by rw [runFor_add, runFor_stopped j hstop]; rfl⟩
        exact ⟨k + 1, (core_run_next k hstep).trans hk⟩

end Sys2Proof.Machine

namespace Sys2Proof.Proofs

open Sys2Proof Sys2Proof.Machine

/-- Settles O50: `step_safe`, of whose outcomes only a next state is left. -/
theorem stepKeepsTheInvariant : Obligations.StepKeepsTheInvariant := by
  intro s t hinv hstep
  have hsafe := step_safe hinv
  rwa [hstep] at hsafe

/-- Settles O51: `step_safe`, and no label of a state that meets the invariant is stuck. -/
theorem noStepFaultsUnderTheInvariant : Obligations.NoStepFaultsUnderTheInvariant :=
  fun _ hinv => ⟨step_safe hinv, blockInv_not_stuck (tick_keeps_blockInv hinv)⟩

/-- Settles O49: nothing is written at reset, and nothing has begun. -/
theorem resetMeetsTheInvariant : Obligations.ResetMeetsTheInvariant where
  params := rfl
  buf := rfl
  r1 := nofun
  frame := nofun
  cntResp := nofun
  cntPoll := nofun
  cntToken := nofun
  cntBusy := nofun
  result := nofun
  ready := nofun
  pin := rfl
  balance := rfl
  position := ⟨rfl, by simp [capSettled, State.reset]⟩

/-- Settles O53: each step is at least one primitive, and the operation's end is reached within its primitives. -/
theorem stepsOfAnOperationReachItsMeaning : Obligations.StepsOfAnOperationReachItsMeaning := by
  intro s hinv hrun
  obtain ⟨n, -, hidle, -, -, hmeaning⟩ := everyOperationEnds s hinv hrun
  rw [hmeaning]
  exact core_run_reaches (by rw [hidle]; rfl)

/-- Settles O54: the fetched request, decoded. -/
theorem stepRunsTheDecodedRequest : Obligations.StepRunsTheDecodedRequest := by
  intro s bytes rest i hidle hreq hdec
  simp only [step, fetch_request hidle hreq, hdec]

/-- Settles O55: what is fetched at a command's first byte, at any other running label, and in IDLE. -/
theorem stepFollowsTheSequencer : Obligations.StepFollowsTheSequencer := by
  refine ⟨fun s c i hwire hseq => step_wireCommand hwire hseq, fun s hrun hno => step_primitive hrun hno, fun s hidle hreq => ?_⟩
  have hfetch : fetch s = .wait := by simp only [fetch, hidle, hreq]
  simp only [step, hfetch]

end Sys2Proof.Proofs

/-!
PROOFS, CRC7 and the commands that are answered: the message remainder (O8), CRC7 and SEND_COMMAND as whole operations (O9, O14), the
eight wire commands (O16 to O21), and where they run (O24).
-/

/-! ## CRC7 of a message as a remainder -/

namespace Sys2Proof.Machine

open Polynomial

/-- CRC7 of bytes is the generator's step over their bits, most significant first (R75). -/
theorem crc7_eq_bits (data : List Byte) : crc7 data = (bitsOfBytes data).foldl crcBit 0#7 := by
  rw [crc7, bitsOfBytes, List.foldl_flatMap]
  rfl

/-- One more bit keeps the register the remainder of the message so far. -/
theorem generator_dvd_step {p : (ZMod 2)[X]} {crc : CrcValue} (d : Bool)
    (h : generatorPolynomial ∣ p * X ^ 7 + crcPolynomial crc) :
    generatorPolynomial ∣ (p * X + (if d then 1 else 0)) * X ^ 7 + crcPolynomial (crcBit crc d) := by
  have hstep : generatorPolynomial ∣ crcPolynomial (crcBit crc d) + (crcPolynomial crc * X + (if d = true then X ^ 7 else 0)) := by
    rw [crcPolynomial_crcBit_add]
    split
    · exact dvd_rfl
    · exact dvd_zero _
  have hbit : (if d then (1 : (ZMod 2)[X]) else 0) * X ^ 7 = if d = true then X ^ 7 else 0 := by rw [ite_mul, one_mul, zero_mul]
  have hsum : (p * X + (if d then 1 else 0)) * X ^ 7 + crcPolynomial (crcBit crc d) =
      (p * X ^ 7 + crcPolynomial crc) * X +
        (crcPolynomial (crcBit crc d) + (crcPolynomial crc * X + (if d = true then X ^ 7 else 0))) := by
    have htwo : crcPolynomial crc * X + crcPolynomial crc * X = 0 := CharTwo.add_self_eq_zero _
    rw [add_mul, hbit]
    linear_combination -htwo
  rw [hsum]
  exact dvd_add (h.mul_right X) hstep

/-- The register is the remainder of the bits it has taken, whatever it has taken before (R76). -/
theorem generator_dvd_foldl (bits : List Bool) {p : (ZMod 2)[X]} {crc : CrcValue}
    (h : generatorPolynomial ∣ p * X ^ 7 + crcPolynomial crc) :
    generatorPolynomial ∣ bits.foldl (fun q d => q * X + (if d then 1 else 0)) p * X ^ 7 +
      crcPolynomial (bits.foldl crcBit crc) := by
  induction bits generalizing p crc with
  | nil => exact h
  | cons d bits ih => exact ih (generator_dvd_step d h)

/-- Seven bits are the coefficients below x^7. -/
theorem crcPolynomial_degree_lt (crc : CrcValue) : (crcPolynomial crc).degree < 7 := by
  have hmem : crcPolynomial crc ∈ degreeLT (ZMod 2) 7 := by
    refine list_sum_mem fun q hq => ?_
    obtain ⟨j, hj, rfl⟩ := List.mem_map.mp hq
    split
    · rw [mem_degreeLT, degree_X_pow]
      exact_mod_cast List.mem_range.mp hj
    · exact zero_mem _
  exact mem_degreeLT.mp hmem

end Sys2Proof.Machine

namespace Sys2Proof.Proofs

open Sys2Proof Sys2Proof.Machine

/-- Settles O8: the bits of the message, one step each, from a register that is 0. -/
theorem crcIsTheMessageRemainder : Obligations.CrcIsTheMessageRemainder := by
  refine ⟨fun data => ⟨?_, crcPolynomial_degree_lt _⟩, crcPolynomial_crcPoly⟩
  rw [crc7_eq_bits]
  exact generator_dvd_foldl _ (by rw [zero_mul, zero_add, crcPolynomial_zero]; exact dvd_zero _)

end Sys2Proof.Proofs

/-! ## Every run stops -/

namespace Sys2Proof.Machine

/-- The steps left bound a run from any state, whether or not it meets the invariant: it ends, or it is stuck. -/
theorem runFor_stops {n : Nat} {s : State} (h : stepsLeft s < n) : (runFor n s).seq.running = false := by
  induction n generalizing s with
  | zero => omega
  | succ n ih =>
    cases hrun : s.seq.running with
    | false => rw [runFor_stopped _ hrun]; exact hrun
    | true =>
      rw [runFor_running n hrun]
      obtain ⟨hidle, -⟩ | ⟨-, -, hfewer⟩ | ⟨f, hstuck⟩ := tick_progress hrun
      · have hstop : (tick s).seq.running = false := by rw [hidle]; rfl
        rw [runFor_stopped n hstop]; exact hstop
      · exact ih (by omega)
      · have hstop : (tick s).seq.running = false := by rw [hstuck]; rfl
        rw [runFor_stopped n hstop]; exact hstop

/-- The model's budget stops every run (notes/assumptions/19.md). -/
theorem runToIdle_stops (s : State) : (runToIdle s).seq.running = false := runFor_stops (stepsLeft_lt_budget s)

/-- Wherever a run stops, the run to completion stops there (R14). -/
theorem runToIdle_eq {n : Nat} {s t : State} (hrun : runFor n s = t) (ht : t.seq.running = false) : runToIdle s = t := by
  obtain hle | hle := Nat.le_total n (operationBudget s.params)
  · exact runToIdle_of_runFor hrun hle ht
  · obtain ⟨k, rfl⟩ := Nat.exists_eq_add_of_le hle
    rw [runFor_add] at hrun
    exact (runFor_stopped k (runToIdle_stops s)).symm.trans hrun

/-! ## Commands that are answered -/

/-- The state of an answered command when its response has been read, as the framer comes to it. -/
theorem commandReturned_eq {c : Issuer} {a : Reply} (rest : List Answer) (s : State) (hjunk : a.junk.length = 6) :
    { pollRead c a.delay a.r1 rest (commandAt c a.junk (.byte a.r1 :: rest) s) with r1 := .written a.r1 } =
      commandReturned c a rest s := by
  rw [commandAt_frame c _ s hjunk, commandReturned, reply_events_reverse, List.cons_append, List.append_assoc]
  rfl

/-- A wire command that is answered runs to what its issuer does with the response (R80 to R83). -/
theorem runCommand_answered {c : Issuer} {a : Reply} {rest : List Answer} {s : State} (hseq : s.seq = .cmd c (.tx 0))
    (hok : a.ok s.params.respPollLimit) (hans : s.answers = a.answers ++ rest) :
    runCommand c s = afterResponse c a.r1 (commandReturned c a rest s) := by
  obtain ⟨hjunk, hdelay, hr1⟩ := hok
  have hans' : s.answers = bytesAnswered (a.junk ++ List.replicate a.delay notReadyByte) ++ .byte a.r1 :: rest := by
    rw [hans, Reply.answers, bytesAnswered_concat]; rfl
  have hbudget : commandBudget s.params =
      (a.junk ++ List.replicate a.delay notReadyByte).length + (s.params.respPollLimit - a.delay) + 1 := by
    simp [commandBudget, hjunk]; omega
  rw [runCommand, hbudget, runCommandFor_unanswered _ hseq (unanswered_silent hjunk (by omega)) hans',
    runCommandFor_inside _ (commandAt_inCommand c _ _ s), commandAt_silent c _ s hjunk hdelay.le,
    tick_pollAt, isResponse_eq_true hr1, if_pos rfl, commandReturned_eq rest s hjunk, runCommandFor_left _ (afterResponse_leaves ..)]

/-- An answered wire command where the sequencer issues it (R58). -/
theorem issue_answered {c : Issuer} {a : Reply} {rest : List Answer} {s : State} (hseq : s.seq = .cmd c (.tx 0))
    (hok : a.ok s.params.respPollLimit) (hans : s.answers = a.answers ++ rest) :
    issue c s = .next (afterResponse c a.r1 (commandReturned c a rest s)) := by
  rw [issue_start hseq, runCommand_answered hseq hok hans]

theorem idleResponse_iff {r : Byte} : idleResponse r = true ↔ r = 0x01#8 := beq_iff_eq
theorem readyResponse_iff {r : Byte} : readyResponse r = true ↔ r = 0x00#8 := beq_iff_eq

/-- R1[2], by arithmetic on the byte (R60). -/
theorem illegalCommand_iff {r : Byte} : illegalCommand r = true ↔ r.toNat / 4 % 2 = 1 := by
  rw [illegalCommand, BitVec.getLsbD, Nat.testBit_eq_decide_div_mod_eq, decide_eq_true_iff]

/-- What INIT does with ACMD41's R1 in iteration n of its poll (R103, R104). -/
theorem initAfterAcmd41_eq {r : Byte} {n : Nat} {s : State} (hcnt : s.cntPoll = .written n) :
    initAfterAcmd41 r s = if r = 0x00#8 then s.goto (.cmd .iCmd58 (.tx 0))
      else if n < s.params.ocrPollLimit then { s with cntPoll := .written (n + 1) }.goto (.cmd .iCmd55 (.tx 0))
      else raise .init .timeoutInitPoll .sPoll s := by
  split
  · next hr => exact if_pos (readyResponse_iff.mpr hr)
  · next hr => exact initAfterAcmd41_notReady hr hcnt

end Sys2Proof.Machine

namespace Sys2Proof.Proofs

open Sys2Proof Sys2Proof.Machine

/-- Settles O9: C_RUN is the one step of the operation. -/
theorem crc7Completes : Obligations.Crc7Completes := by
  intro s data hidle
  have hrun : runFor 1 ((s.log (.begun (.crc7 data))).goto (.cRun data)) =
      crcRun data ((s.log (.begun (.crc7 data))).goto (.cRun data)) := rfl
  rw [exec, execCrc7, request_idle _ _ hidle, runToIdle_eq hrun rfl]
  simp [crcRun, complete, endOperation, okResult, State.log, State.goto, hidle]

/-- Settles O14: the answered command of the host, whose response completes the operation. -/
theorem sendCommandReturnsTheResponse : Obligations.SendCommandReturnsTheResponse := by
  intro s index arg a rest hidle hok hans
  have hrun := runFor_answered (c := .host index arg) (s := (s.log (.begun (.sendCommand index arg))).goto (.cmd (.host index arg) (.tx 0)))
    rfl hok hans
  rw [exec, execSendCommand, request_idle _ _ hidle, runToIdle_eq hrun rfl]
  simp [afterResponse, complete, endOperation, okResult, commandReturned, Issuer.index, Issuer.arg, State.log, State.goto, hidle]

/-- Settles O16: the answered CMD0, and INIT's test of its R1. -/
theorem cmd0NeedsTheIdleResponse : Obligations.Cmd0NeedsTheIdleResponse := by
  intro s a rest hseq hok hans
  simp only [← idleResponse_iff]
  exact issue_answered hseq hok hans

/-- Settles O17: the answered CMD8, and INIT's test of R1[2]. -/
theorem cmd8DecidesLegacyByBit2 : Obligations.Cmd8DecidesLegacyByBit2 := by
  intro s a rest hseq hok hans
  simp only [← illegalCommand_iff]
  exact issue_answered hseq hok hans

/-- Settles O18: the answered CMD55, whose R1 INIT ignores. -/
theorem cmd55IgnoresItsResponse : Obligations.Cmd55IgnoresItsResponse := by
  intro s a rest hseq hok hans
  exact issue_answered hseq hok hans

/-- Settles O19: the answered ACMD41, by its R1 and the number of the iteration. -/
theorem acmd41EndsThePollAtReady : Obligations.Acmd41EndsThePollAtReady := by
  intro s n a rest hseq hcnt hok hans
  have hafter := initAfterAcmd41_eq (r := a.r1) (s := commandReturned .iAcmd41 a rest s) hcnt
  exact (issue_answered hseq hok hans).trans (congrArg _ hafter)

/-- Settles O20: the answered CMD58 and CMD16, and INIT's test of their R1. -/
theorem cmd58AndCmd16NeedZero : Obligations.Cmd58AndCmd16NeedZero := by
  simp only [Obligations.Cmd58AndCmd16NeedZero, ← readyResponse_iff]
  exact ⟨fun s a rest hseq hok hans => issue_answered hseq hok hans, fun s a rest hseq hok hans => issue_answered hseq hok hans⟩

/-- Settles O21: the answered CMD17 and CMD24, and the test of their R1. -/
theorem cmd17AndCmd24NeedZero : Obligations.Cmd17AndCmd24NeedZero := by
  simp only [Obligations.Cmd17AndCmd24NeedZero, ← readyResponse_iff]
  exact ⟨fun s arg a rest hseq hok hans => issue_answered hseq hok hans, fun s arg a rest hseq hok hans => issue_answered hseq hok hans⟩

/-- Settles O24: `issue` tests for the label of its issuer. -/
theorem wireCommandsRunOnlyWhereIssued : Obligations.WireCommandsRunOnlyWhereIssued := by
  intro s c i hwire
  rw [exec_wireCommand hwire]
  refine ⟨⟨fun ⟨t, ht⟩ => ?_, fun hseq => ⟨_, issue_start hseq⟩⟩, fun hseq => if_neg hseq⟩
  by_contra hseq
  rw [issue, if_neg hseq] at ht
  cases ht

end Sys2Proof.Proofs

/-!
PROOFS, what every step keeps and what a primitive does: the history only grows (O56), one exchange at most (O57). `Quiet` is all that
happens besides an exchange; each label is quiet, or one exchange with only quiet steps around it.
-/

/-! ## Steps without an exchange -/

namespace Sys2Proof.Machine

/-- From s to t no exchange was made: events were added, none of them an exchange, and no answer was taken. -/
structure Quiet (s t : State) : Prop where
  history : ∃ new, t.history = new ++ s.history ∧ exchangeCount new = 0
  answers : t.answers = s.answers
  draws   : t.draws = s.draws
  params  : t.params = s.params

theorem exchangeCount_append (new old : List Event) : exchangeCount (new ++ old) = exchangeCount new + exchangeCount old := by
  simp [exchangeCount]

/-- A register write, or the sequencer's move to another label. -/
theorem quiet_of_same {s t : State} (hhist : t.history = s.history) (hans : t.answers = s.answers) (hdraws : t.draws = s.draws)
    (hparams : t.params = s.params) : Quiet s t := ⟨⟨[], hhist, rfl⟩, hans, hdraws, hparams⟩

theorem quiet_rfl {s : State} : Quiet s s := quiet_of_same rfl rfl rfl rfl

theorem quiet_trans {s t u : State} (hst : Quiet s t) (htu : Quiet t u) : Quiet s u := by
  obtain ⟨⟨new, hnew, hcount⟩, hans, hdraws, hparams⟩ := hst
  obtain ⟨⟨new', hnew', hcount'⟩, hans', hdraws', hparams'⟩ := htu
  refine ⟨⟨new' ++ new, by rw [hnew', hnew, List.append_assoc], ?_⟩, hans'.trans hans, hdraws'.trans hdraws,
    hparams'.trans hparams⟩
  rw [exchangeCount_append, hcount, hcount']

/-- Quiet after register writes, which are no events. -/
theorem quiet_of_written {s t u : State} (htu : Quiet t u) (hhist : t.history = s.history) (hans : t.answers = s.answers)
    (hdraws : t.draws = s.draws) (hparams : t.params = s.params) : Quiet s u :=
  quiet_trans (quiet_of_same hhist hans hdraws hparams) htu

theorem quiet_goto (s : State) (l : Seq) : Quiet s (s.goto l) := quiet_of_same rfl rfl rfl rfl

theorem quiet_log {s : State} {e : Event} (h : e.isExchange = false) : Quiet s (s.log e) :=
  ⟨⟨[e], rfl, by simp [exchangeCount, h]⟩, rfl, rfl, rfl⟩

theorem quiet_csSet (l : Level) (s : State) : Quiet s (csSet l s) :=
  quiet_of_written (t := { s with csLevel := l }) (quiet_log (e := .pin l) rfl) rfl rfl rfl rfl

theorem quiet_endOperation (r : Result) (s : State) : Quiet s (endOperation r s) :=
  quiet_of_written (t := { s with result := .written r, seq := .idle }) (quiet_log (e := .ended r) rfl) rfl rfl rfl rfl

theorem quiet_complete (bx : Bool) (v : Option Value) (s : State) : Quiet s (complete bx v s) := quiet_endOperation _ s

theorem quiet_errorExit (op : Operation) (s : State) : Quiet s (errorExit op s) := by
  cases op with
  | crc7 => exact quiet_rfl
  | sendCommand => exact quiet_rfl
  | init => exact quiet_of_written (t := { s with initState := .failed, cap := .undefined }) (quiet_csSet .high _) rfl rfl rfl rfl
  | readBlock => exact quiet_csSet .high s
  | writeBlock => exact quiet_csSet .high s

theorem quiet_raise (op : Operation) (k : Status) (tag : StepTag) (s : State) : Quiet s (raise op k tag s) :=
  quiet_trans (quiet_errorExit op s) (quiet_endOperation _ _)

theorem quiet_withRead {α : Type} {s : State} {v : Except Fault α} {use : α → State → State} (h : ∀ a, Quiet s (use a s)) :
    Quiet s (withRead v use s) :=
  withRead_spec (fun a _ => h a) (fun f _ => quiet_goto s (.stuck f))

theorem quiet_ite {s t u : State} {p : Prop} [Decidable p] (ht : Quiet s t) (hu : Quiet s u) : Quiet s (if p then t else u) := by
  split
  · exact ht
  · exact hu

theorem quiet_initEnterPoll (s : State) : Quiet s (initEnterPoll s) := quiet_of_same rfl rfl rfl rfl

theorem quiet_initCheckEcho (s : State) : Quiet s (initCheckEcho s) :=
  quiet_withRead fun _ => quiet_withRead fun _ => quiet_ite (quiet_initEnterPoll s) (quiet_raise ..)

theorem quiet_initDecideCapacity (s : State) : Quiet s (initDecideCapacity s) :=
  quiet_withRead fun _ => quiet_withRead fun _ => quiet_of_same rfl rfl rfl rfl

/-- What an issuer does with a response makes no exchange. -/
theorem quiet_afterResponse (c : Issuer) (r : Byte) (s : State) : Quiet s (afterResponse c r s) := by
  cases c with
  | host index arg => exact quiet_complete ..
  | iCmd0 => exact quiet_ite (quiet_goto ..) (quiet_raise ..)
  | iCmd8 => exact quiet_ite (quiet_of_same rfl rfl rfl rfl) (quiet_goto ..)
  | iCmd55 => exact quiet_goto ..
  | iAcmd41 =>
    exact quiet_ite (quiet_goto ..) (quiet_withRead fun _ => quiet_ite (quiet_of_same rfl rfl rfl rfl) (quiet_raise ..))
  | iCmd58 => exact quiet_ite (quiet_goto ..) (quiet_raise ..)
  | iCmd16 => exact quiet_ite (quiet_goto ..) (quiet_raise ..)
  | rbCmd17 a => exact quiet_ite (quiet_of_same rfl rfl rfl rfl) (quiet_raise ..)
  | wbCmd24 a => exact quiet_ite (quiet_goto ..) (quiet_raise ..)

/-! ## One primitive -/

/-- From s to t at most one exchange was made, and an answer was taken exactly with it (R32, R165). -/
def OnePrimitive (s t : State) : Prop :=
  t.params = s.params ∧ ∃ new, t.history = new ++ s.history ∧
    ((exchangeCount new = 0 ∧ t.answers = s.answers ∧ t.draws = s.draws) ∨
      (exchangeCount new = 1 ∧ t.answers = s.answers.tail ∧ t.draws = s.draws + (if s.answers = [] then 1 else 0)))

theorem onePrimitive_of_quiet {s t : State} (h : Quiet s t) : OnePrimitive s t := by
  obtain ⟨⟨new, hnew, hcount⟩, hans, hdraws, hparams⟩ := h
  exact ⟨hparams, new, hnew, .inl ⟨hcount, hans, hdraws⟩⟩

theorem xfer_draws (out : Byte) (s : State) : (xfer out s).draws = s.draws + (if s.answers = [] then 1 else 0) := by
  have hdraws : (xfer out s).draws = s.takeAnswer.draws := rfl
  rw [hdraws, takeAnswer_draws]
  split <;> rfl

/-- Quiet steps after the one exchange of a primitive. -/
theorem onePrimitive_of_xfer {s t : State} {out : Byte} (h : Quiet (xfer out s) t) : OnePrimitive s t := by
  obtain ⟨⟨new, hnew, hcount⟩, hans, hdraws, hparams⟩ := h
  refine ⟨hparams.trans (xfer_params ..), new ++ [xferEvent s.csLevel out s.nextAnswer], ?_, .inr ⟨?_, ?_, ?_⟩⟩
  · rw [hnew, xfer_history, List.append_cons]
  · rw [exchangeCount_append, hcount]
    simp [exchangeCount, xferEvent_isExchange]
  · rw [hans, xfer_answers]
  · rw [hdraws, xfer_draws]

theorem onePrimitive_exchange {op : Operation} {tag : StepTag} {out : Byte} {use : Byte → State → State} {s : State}
    (h : ∀ b u, Quiet u (use b u)) : OnePrimitive s (exchange op tag out use s) :=
  exchange_spec (fun b _ => onePrimitive_of_xfer (h b _)) (fun _ => onePrimitive_of_xfer (quiet_raise ..))

theorem onePrimitive_withRead {α : Type} {s : State} {v : Except Fault α} {use : α → State → State}
    (h : ∀ a, OnePrimitive s (use a s)) : OnePrimitive s (withRead v use s) :=
  withRead_spec (fun a _ => h a) (fun f _ => onePrimitive_of_quiet (quiet_goto s (.stuck f)))

theorem onePrimitive_framerSend (c : Issuer) (k : Fin 6) (s : State) : OnePrimitive s (framerSend c k s) := by
  refine onePrimitive_withRead fun f => onePrimitive_exchange fun b u => ?_
  split
  · exact quiet_goto ..
  · exact quiet_of_same rfl rfl rfl rfl

/-- FRAME is loaded in the same primitive that sends its first byte (notes/assumptions/14.md). -/
theorem onePrimitive_framerTx (c : Issuer) (k : Fin 6) (s : State) : OnePrimitive s (framerTx c k s) := by
  rw [framerTx]
  split
  · exact onePrimitive_framerSend c k (loadFrame c s)
  · exact onePrimitive_framerSend c k s

theorem onePrimitive_framerRx (c : Issuer) (s : State) : OnePrimitive s (framerRx c s) :=
  onePrimitive_withRead fun _ => onePrimitive_exchange fun b _ => quiet_ite
    (quiet_of_written (quiet_afterResponse c b _) rfl rfl rfl rfl)
    (quiet_ite (quiet_of_same rfl rfl rfl rfl) (quiet_raise ..))

/-- A byte received into TAIL, and what follows the last one. -/
theorem onePrimitive_tailByte {op : Operation} {tag : StepTag} {out : Byte} {k : Fin 4} {next : Fin 4 → Seq}
    {last : State → State} {s : State} (hlast : ∀ u, Quiet u (last u)) :
    OnePrimitive s (exchange op tag out (fun b s' =>
      if h : k.val + 1 < 4 then { s' with tail := s'.tail.set k b }.goto (next ⟨k.val + 1, h⟩)
      else last { s' with tail := s'.tail.set k b }) s) := by
  refine onePrimitive_exchange fun b u => ?_
  split
  · exact quiet_of_same rfl rfl rfl rfl
  · exact quiet_of_written (hlast _) rfl rfl rfl rfl

/-- A step of the sequencer is one primitive, at every label (R32). -/
theorem tick_onePrimitive (s : State) : OnePrimitive s (tick s) := by
  rw [tick]
  split
  · exact onePrimitive_of_quiet quiet_rfl
  · exact onePrimitive_of_quiet quiet_rfl
  · exact onePrimitive_of_quiet (quiet_of_written (quiet_complete ..) rfl rfl rfl rfl)
  · exact onePrimitive_framerTx ..
  · exact onePrimitive_framerRx ..
  · exact onePrimitive_of_quiet (quiet_trans (quiet_csSet ..) (quiet_goto ..))
  · exact onePrimitive_exchange fun _ u => quiet_goto u _
  · exact onePrimitive_of_quiet (quiet_trans (quiet_csSet ..) (quiet_goto ..))
  · exact onePrimitive_tailByte quiet_initCheckEcho
  · exact onePrimitive_tailByte quiet_initDecideCapacity
  · exact onePrimitive_of_quiet (quiet_of_written (t := { s with initState := .ready })
      (quiet_trans (quiet_csSet .high _) (quiet_complete ..)) rfl rfl rfl rfl)
  · exact onePrimitive_of_quiet (quiet_trans (quiet_csSet ..) (quiet_goto ..))
  · exact onePrimitive_withRead fun _ => onePrimitive_exchange fun _ u => quiet_ite (quiet_goto u _)
      (quiet_ite (quiet_of_same rfl rfl rfl rfl) (quiet_raise ..))
  · exact onePrimitive_exchange fun _ _ => quiet_withRead fun _ => quiet_of_same rfl rfl rfl rfl
  · exact onePrimitive_exchange fun _ u => quiet_goto u _
  · exact onePrimitive_withRead fun _ => onePrimitive_of_quiet (quiet_trans (quiet_csSet ..) (quiet_complete ..))
  · exact onePrimitive_of_quiet (quiet_trans (quiet_csSet ..) (quiet_goto ..))
  · exact onePrimitive_exchange fun _ u => quiet_goto u _
  · exact onePrimitive_exchange fun _ u => quiet_goto u _
  · exact onePrimitive_withRead fun _ => onePrimitive_exchange fun _ u => quiet_goto u _
  · exact onePrimitive_exchange fun _ u => quiet_goto u _
  · exact onePrimitive_exchange fun _ _ => quiet_ite (quiet_of_same rfl rfl rfl rfl) (quiet_raise ..)
  · exact onePrimitive_withRead fun _ => onePrimitive_exchange fun _ u => quiet_ite (quiet_goto u _)
      (quiet_ite (quiet_of_same rfl rfl rfl rfl) (quiet_goto u _))
  · exact onePrimitive_of_quiet (quiet_trans (quiet_csSet ..) (quiet_complete ..))

/-! ## The history over steps -/

/-- From s to t events were only added, and the parameters are the same (R30, R35, R47). -/
def Grows (s t : State) : Prop := (∃ new, t.history = new ++ s.history) ∧ t.params = s.params

theorem grows_rfl {s : State} : Grows s s := ⟨⟨[], rfl⟩, rfl⟩

theorem grows_trans {s t u : State} (hst : Grows s t) (htu : Grows t u) : Grows s u := by
  obtain ⟨⟨new, hnew⟩, hparams⟩ := hst
  obtain ⟨⟨new', hnew'⟩, hparams'⟩ := htu
  exact ⟨⟨new' ++ new, by rw [hnew', hnew, List.append_assoc]⟩, hparams'.trans hparams⟩

theorem tick_grows (s : State) : Grows s (tick s) := by
  obtain ⟨hparams, new, hnew, -⟩ := tick_onePrimitive s
  exact ⟨⟨new, hnew⟩, hparams⟩

theorem runFor_grows (n : Nat) (s : State) : Grows s (runFor n s) :=
  runFor_keeps (P := Grows s) (fun t ht => grows_trans ht (tick_grows t)) n grows_rfl

theorem runCommandFor_grows (c : Issuer) (n : Nat) (s : State) : Grows s (runCommandFor c n s) :=
  runCommandFor_keeps (P := Grows s) (fun t ht => grows_trans ht (tick_grows t)) c n grows_rfl

/-- An accepted request adds Begin, sets its operation up, and runs. -/
theorem request_grows {op : Instr} {setUp : State → State} {s t : State} (h : request op setUp s = .next t)
    (hsetUp : ∀ u, Grows u (setUp u)) : Grows s t := by
  rw [request] at h
  split at h
  · cases h
    have hbegun : Grows s (s.log (.begun op)) := ⟨⟨[.begun op], rfl⟩, rfl⟩
    exact grows_trans (grows_trans hbegun (hsetUp _)) (runFor_grows _ _)
  · cases h

theorem issue_grows {c : Issuer} {s t : State} (h : issue c s = .next t) : Grows s t := by
  rw [issue] at h
  split at h
  · cases h; exact runCommandFor_grows ..
  · cases h

theorem exec_grows {i : Instr} {s t : State} (h : exec i s = .next t) : Grows s t := by
  cases i with
  | crc7 data =>
    rw [exec, execCrc7] at h
    exact request_grows h fun u => ⟨⟨[], rfl⟩, rfl⟩
  | sendCommand index arg =>
    rw [exec, execSendCommand] at h
    exact request_grows h fun u => ⟨⟨[], rfl⟩, rfl⟩
  | init =>
    rw [exec, execInit] at h
    exact request_grows h fun u => ⟨⟨[], rfl⟩, rfl⟩
  | readBlock index =>
    rw [exec, execReadBlock] at h
    split at h
    · exact request_grows h fun u => ⟨⟨[], rfl⟩, rfl⟩
    · cases h
  | writeBlock index data =>
    rw [exec, execWriteBlock] at h
    split at h
    · split at h
      · exact request_grows h fun u => ⟨⟨[], rfl⟩, rfl⟩
      · cases h
    · split at h <;> cases h
  | _ => exact issue_grows h

theorem step_grows {s t : State} (h : step s = .next t) : Grows s t := by
  rw [step] at h
  split at h
  · next c start hfetch =>
    have hstart : Grows s start := by
      obtain rfl | ⟨rest, rfl⟩ := fetch_code hfetch
      · exact grows_rfl
      · exact ⟨⟨[], rfl⟩, rfl⟩
    split at h
    · exact grows_trans hstart (exec_grows h)
    · cases h
  · cases h; exact tick_grows s
  · cases h; exact grows_rfl
  · cases h

end Sys2Proof.Machine

namespace Sys2Proof.Proofs

open Sys2Proof Sys2Proof.Machine

/-- Settles O56: each primitive only adds events, and so do the runs, the operations and the steps made of them. -/
theorem historyOnlyGrows : Obligations.HistoryOnlyGrows := fun _ _ h => step_grows h

/-- Settles O57: `tick_onePrimitive`. -/
theorem primitiveMakesAtMostOneExchange : Obligations.PrimitiveMakesAtMostOneExchange := by
  intro s
  obtain ⟨-, hnew⟩ := tick_onePrimitive s
  exact hnew

end Sys2Proof.Proofs

/-!
PROOFS, errors, refusals and reset: the exit actions (O25), a transport fault at any exchange (O26), the reads of RESULT (O39), the
refusals (O46, O47), the state after reset (O48), and a host program's READ and WRITE (O58).
-/

/-! ## A fault at any exchange -/

namespace Sys2Proof.Machine

theorem operation_cmd (c : Issuer) (f : Framer) : (Seq.cmd c f).operation = some c.operation := by
  cases c <;> rfl

theorem issuer_operation_ne_crc7 (c : Issuer) : c.operation ≠ .crc7 := by
  cases c <;> nofun

/-- The step is an exchange of this operation with this tag, on the state itself or with a frame just loaded. -/
def IsExchange (op : Operation) (tag : StepTag) (s t : State) : Prop :=
  ∃ out use frame crc, t = exchange op tag out use { s with frame := frame, crc := crc }

theorem isExchange_same (op : Operation) (tag : StepTag) (out : Byte) (use : Byte → State → State) (s : State) :
    IsExchange op tag s (exchange op tag out use s) := ⟨out, use, s.frame, s.crc, rfl⟩

theorem framerTx_isExchange {s : State} {c : Issuer} {k : Fin 6} (hframer : framerOk c (.tx k) s) :
    IsExchange c.operation c.tag s (framerTx c k s) := by
  rw [framerTx]
  split
  · rw [framerSend, State.readFrame, loadFrame_frame, readRegister_written, withRead_ok]
    exact isExchange_same _ _ _ _ (loadFrame c s)
  · next hk =>
    rw [framerSend, State.readFrame, hframer hk, readRegister_written, withRead_ok]
    exact isExchange_same ..

theorem framerRx_isExchange {s : State} {c : Issuer} (hframer : framerOk c .rx s) :
    IsExchange c.operation c.tag s (framerRx c s) := by
  obtain ⟨-, j, hj, -⟩ := hframer
  rw [framerRx, State.readCntResp, hj, readRegister_written, withRead_ok]
  exact isExchange_same ..

/-- Under the invariant, a label with a step tag for its exchange makes one, with the operation and the tag R132 gives the label. -/
theorem tick_isExchange {s : State} {op : Operation} {tag : StepTag} (hinv : BlockInv s) (hop : s.seq.operation = some op)
    (htag : s.seq.exchangeTag = some tag) : IsExchange op tag s (tick s) ∧ op ≠ .crc7 := by
  have hpos := hinv.position
  rw [tick]
  cases hseq : s.seq with
  | cmd c f =>
    rw [hseq] at hpos hop htag
    obtain ⟨-, hframer⟩ := hpos
    rw [operation_cmd, Option.some.injEq] at hop
    rw [exchangeTag_cmd, Option.some.injEq] at htag
    subst hop htag
    refine ⟨?_, issuer_operation_ne_crc7 c⟩
    cases f with
    | tx k => exact framerTx_isExchange hframer
    | rx => exact framerRx_isExchange hframer
  | rbToken =>
    rw [hseq] at hpos hop htag
    cases hop; cases htag
    obtain ⟨-, -, n, hn, -⟩ := hpos
    simp only [readToken, State.readCntToken, hn, readRegister_written, withRead_ok]
    exact ⟨isExchange_same .., nofun⟩
  | wbData k =>
    rw [hseq] at hpos hop htag
    cases hop; cases htag
    obtain ⟨-, -, hfilled⟩ := hpos
    obtain ⟨out, hout⟩ := memRead_filled hfilled k.isLt le_rfl
    simp only [writeData, hout, withRead_ok]
    exact ⟨isExchange_same .., nofun⟩
  | wbBusy =>
    rw [hseq] at hpos hop htag
    cases hop; cases htag
    obtain ⟨-, -, n, hn, -⟩ := hpos
    simp only [writeBusy, State.readCntBusy, hn, readRegister_written, withRead_ok]
    exact ⟨isExchange_same .., nofun⟩
  | iDummy _ | iCmd8Tail _ | iOcr _ | rbData _ | rbCrc _ | wbGap _ | wbToken | wbCrc _ | wbResp =>
    rw [hseq] at hop htag
    cases hop; cases htag
    exact ⟨isExchange_same .., nofun⟩
  | idle | cRun _ | iDesel | iSel | iEnd | rbSel _ | rbEnd | wbSel _ | wbEnd _ | stuck _ =>
    rw [hseq] at htag
    cases htag

/-- The exit actions add the deselect of every operation that drives the pin (R137). -/
theorem errorExit_history {op : Operation} (h : op ≠ .crc7) (s : State) :
    (errorExit op s).history = (if op = .sendCommand then [] else [.pin .high]) ++ s.history := by
  cases op with
  | crc7 => exact absurd rfl h
  | _ => rfl

/-- The exit actions give up the readiness and the class in INIT alone (R109, R127). -/
theorem errorExit_initState (op : Operation) (s : State) :
    (errorExit op s).initState = if op = .init then .failed else s.initState := by cases op <;> rfl

theorem errorExit_cap (op : Operation) (s : State) :
    (errorExit op s).cap = if op = .init then .undefined else s.cap := by cases op <;> rfl

/-- A transfer without an address is refused for its reason (R114, R115, R134). -/
theorem exec_readBlock_refused {s : State} {index : Word32} {r : Refusal} (ha : transferAddress index s = .error r) :
    exec (.readBlock index) s = .refused r := by
  rw [exec, execReadBlock, ha]

theorem exec_writeBlock_refused {s : State} {index : Word32} {r : Refusal} {data : List Byte} (hdata : data.length = blockSize)
    (ha : transferAddress index s = .error r) : exec (.writeBlock index data) s = .refused r := by
  rw [exec, execWriteBlock, if_pos hdata, ha]

/-- Data of another length is refused as bad_request, or as busy while an operation runs (R72, notes/assumptions/9.md). -/
theorem exec_writeBlock_dataLength (s : State) (index : Word32) {data : List Byte} (hdata : data.length ≠ blockSize) :
    exec (.writeBlock index data) s = .refused (if s.seq = .idle then .badRequest else .busy) := by
  rw [exec, execWriteBlock, if_neg hdata]
  split <;> rfl

theorem request_busy {s : State} (op : Instr) (setUp : State → State) (hbusy : s.seq ≠ .idle) :
    request op setUp s = .refused .busy := if_neg hbusy

theorem transferAddress_busy {s : State} (index : Word32) (hbusy : s.seq ≠ .idle) : transferAddress index s = .error .busy :=
  if_neg hbusy

theorem xfer_history_fault {s : State} (out : Byte) (h : s.nextAnswer = .fault) :
    (xfer out s).history = .xferFault s.csLevel out :: s.history := by
  rw [xfer_history, h]; rfl

end Sys2Proof.Machine

namespace Sys2Proof.Proofs

open Sys2Proof Sys2Proof.Machine

/-- Settles O25: `raise` is the exit actions and then the end of the operation. -/
theorem errorRunsTheExitActions : Obligations.ErrorRunsTheExitActions := by
  intro s kind tag
  refine ⟨rfl, rfl, ?_⟩
  rintro op (rfl | rfl)
  · rfl
  · rfl

/-- Settles O26: every such label makes an exchange under the invariant, and a faulted exchange raises TransportFailure. -/
theorem transportFaultEndsTheOperation : Obligations.TransportFaultEndsTheOperation := by
  intro s op tag hinv hop htag hfault
  obtain ⟨⟨out, use, frame, crc, htick⟩, hne⟩ := tick_isExchange hinv hop htag
  have hfault : State.nextAnswer { s with frame := frame, crc := crc } = .fault := hfault
  rw [htick, exchange_fault hfault]
  refine ⟨raise_seq .., raise_result .., ⟨out, ?_⟩, ?_, ?_, ?_, ?_⟩
  · rw [raise_history, errorExit_history hne, xfer_history_fault _ hfault]
  · rw [raise_initState, errorExit_initState, xfer_initState]
  · rw [raise_cap, errorExit_cap, xfer_cap]
  · rw [raise_buf, xfer_buf]
  · rw [raise_tail, xfer_tail]

/-- Settles O39: RESULT is unwritten at reset; after an error its step decides, and after a success it is the value. -/
theorem valuelessResultFaults : Obligations.ValuelessResultFaults := by
  have hfailed : ∀ (k : Status) (t : StepTag), k ≠ .ok →
      ((errorResult k t).ofFailedRead = true ↔ t = .sCmd17 ∨ t = .sReadToken ∨ t = .sReadData) := by
    intro k t hk
    simp [Result.ofFailedRead, errorResult, hk, or_assoc]
  refine ⟨rfl, rfl, fun s op k t hk => ?_, fun s bx v => ⟨?_, ?_⟩⟩
  · have hread : (raise op k t s).readResult = .ok (errorResult k t) := by rw [State.readResult, raise_result, readRegister_written]
    refine ⟨hread, ?_⟩
    simp only [State.readResultValue, hread, hfailed k t hk]
    rfl
  · rfl
  · rfl

/-- Settles O46: the tests come in the order data length, readiness, address. -/
theorem blockTransfersAreRefused : Obligations.BlockTransfersAreRefused := by
  intro s index data hidle
  refine ⟨fun hready => ?_, fun hready hcap hover => ?_, fun hdata => ?_⟩
  · have ha := transferAddress_notReady index hidle hready
    exact ⟨exec_readBlock_refused ha, fun hdata => exec_writeBlock_refused hdata ha⟩
  · have ha : transferAddress index s = .error .addrOverflow := by
      rw [transferAddress_ready index hidle hready, hcap, wireAddress_standard_overflows hover]
    exact ⟨exec_readBlock_refused ha, fun hdata => exec_writeBlock_refused hdata ha⟩
  · rw [exec_writeBlock_dataLength s index hdata, if_pos hidle]

/-- Settles O47: each of the five operations asks for IDLE, and WRITE_BLOCK's test of its data says busy too. -/
theorem requestsWhileRunningAreBusy : Obligations.RequestsWhileRunningAreBusy := by
  rintro s i hbusy (⟨data, rfl⟩ | ⟨index, arg, rfl⟩ | rfl | ⟨index, rfl⟩ | ⟨index, data, rfl⟩)
  · rw [exec, execCrc7, request_busy _ _ hbusy]
  · rw [exec, execSendCommand, request_busy _ _ hbusy]
  · rw [exec, execInit, request_busy _ _ hbusy]
  · exact exec_readBlock_refused (transferAddress_busy index hbusy)
  · by_cases hdata : data.length = blockSize
    · exact exec_writeBlock_refused hdata (transferAddress_busy index hbusy)
    · rw [exec_writeBlock_dataLength s index hdata, if_neg hbusy]

/-- Settles O48: the fields of `State.reset`. -/
theorem resetLeavesTheSpecsValues : Obligations.ResetLeavesTheSpecsValues := by
  have htail : ∀ k, State.reset.tail.get k = .unwritten 0#8 := by decide
  exact ⟨rfl, rfl, rfl, rfl, rfl, rfl, rfl, rfl, rfl, htail, fun k => ⟨rfl, rfl⟩, rfl, rfl, rfl, rfl, rfl, rfl, rfl, rfl, rfl,
    rfl, rfl, rfl⟩

/-- Settles O58: element k of the expansion is the index start + k, which does not wrap below 2^32. -/
theorem readAndWriteExpandToConsecutiveBlocks : Obligations.ReadAndWriteExpandToConsecutiveBlocks := by
  have hindex : ∀ (start : Word32) (k : Nat), start.toNat + k < 2 ^ 32 → (start + BitVec.ofNat 32 k).toNat = start.toNat + k := by
    intro start k h
    rw [BitVec.toNat_add, BitVec.toNat_ofNat]; omega
  refine ⟨fun start n => ⟨fun hfits => ⟨_, if_pos hfits, by simp, fun k hk => ?_⟩, fun hover => if_neg (by omega)⟩,
    fun start blocks => ⟨fun hfits => ⟨_, if_pos hfits, by simp, fun k data hdata => ?_⟩, fun hover => if_neg (by omega)⟩⟩
  · exact ⟨start + BitVec.ofNat 32 k, by simp [hk], hindex start k (by omega)⟩
  · have hk : k < blocks.length := (List.getElem?_eq_some_iff.mp hdata).1
    exact ⟨start + BitVec.ofNat 32 k, by simp [hdata], hindex start k (by omega)⟩

end Sys2Proof.Proofs

/-!
PROOFS, READ_BLOCK on a given script: the data-token poll (O38), the payload (O37), and the whole operation (O35). The states of the poll
and of the payload are named once, `tokenAt` and `dataAt`, with what the sequencer's step does there; `Reaches` chains the runs.
-/

/-! ## Runs, without their lengths -/

namespace Sys2Proof.Machine

/-- The sequencer comes from s to t. -/
def Reaches (s t : State) : Prop := ∃ n, runFor n s = t

theorem reaches_of_runFor {n : Nat} {s t : State} (h : runFor n s = t) : Reaches s t := ⟨n, h⟩

theorem reaches_trans {s t u : State} (hst : Reaches s t) (htu : Reaches t u) : Reaches s u := by
  obtain ⟨n, rfl⟩ := hst
  obtain ⟨m, rfl⟩ := htu
  exact ⟨n + m, runFor_add n m s⟩

theorem reaches_tick {s t : State} (hrun : s.seq.running = true) (h : tick s = t) : Reaches s t :=
  ⟨1, (runFor_running 0 hrun).trans h⟩

/-- The run to completion comes to the IDLE state that the sequencer comes to (R14). -/
theorem runToIdle_of_reaches {s t : State} (h : Reaches s t) (hidle : t.seq = .idle) : runToIdle s = t := by
  obtain ⟨n, hrun⟩ := h
  exact runToIdle_eq hrun (by rw [hidle]; rfl)

/-- An answered command, and what its issuer does with the response. -/
theorem reaches_answered {c : Issuer} {a : Reply} {rest : List Answer} {s t : State} (hseq : s.seq = .cmd c (.tx 0))
    (hok : a.ok s.params.respPollLimit) (hans : s.answers = a.answers ++ rest)
    (hafter : afterResponse c a.r1 (commandReturned c a rest s) = t) : Reaches s t :=
  reaches_of_runFor ((runFor_answered hseq hok hans).trans hafter)

/-- A run over listed bytes, by what one step does with the next byte: f names the states it passes through, each by the bytes received
before and the answers still to come. -/
theorem runFor_bytes {f : List Byte → List Answer → State} (bytes : List Byte) (rest : List Answer)
    (hstep : ∀ received b more answers, bytes = received ++ b :: more → (f received (.byte b :: answers)).seq.running = true ∧
      tick (f received (.byte b :: answers)) = f (received ++ [b]) answers) :
    runFor bytes.length (f [] (bytesAnswered bytes ++ rest)) = f bytes rest := by
  induction bytes using List.reverseRecOn generalizing rest with
  | nil => rfl
  | append_singleton bytes b ih =>
    obtain ⟨hrun, htick⟩ := hstep bytes b [] rest rfl
    have hbefore := ih (.byte b :: rest) fun received c more answers h => hstep received c (more ++ [b]) answers (by simp [h])
    rw [bytesAnswered_concat, List.length_append, List.length_singleton, runFor_add, hbefore, runFor_running 0 hrun, htick,
      runFor_zero]

/-! ## The data-token poll -/

theorem tick_rbToken {s : State} (h : s.seq = .rbToken) : tick s = readToken s := by simp [tick, h]

/-- The state of a data-token poll that started in s, after reads that received these bytes, none of them the token; `rest` are the
answers still to come (R118). -/
def tokenAt (received : List Byte) (rest : List Answer) (s : State) : State :=
  { s with
    cntToken := .written (received.length + 1)
    seq := .rbToken
    answers := rest
    history := (fillerReads s.csLevel received).reverse ++ s.history }

/-- The state after the poll's last read, before the sequencer goes on from it (R118). -/
def tokenRead (received : List Byte) (rest : List Answer) (s : State) : State :=
  { s with
    cntToken := .written received.length
    seq := .rbToken
    answers := rest
    history := (fillerReads s.csLevel received).reverse ++ s.history }

theorem isDataToken_eq_false {b : Byte} (h : b ≠ 0xFE#8) : isDataToken b = false := beq_eq_false_iff_ne.mpr h

/-- A data-token poll begins with CNT_TOKEN at 1. -/
theorem tokenAt_start {s : State} (hseq : s.seq = .rbToken) (hcnt : s.cntToken = .written 1) : tokenAt [] s.answers s = s := by
  simp [tokenAt, fillerReads, ← hseq, ← hcnt]

/-- What a step of the poll does with the byte it reads (R118). -/
theorem tick_tokenAt (received : List Byte) (b : Byte) (rest : List Answer) (s : State) :
    tick (tokenAt received (.byte b :: rest) s) =
      if isDataToken b then (tokenRead (received ++ [b]) rest s).goto (.rbData 0)
      else if received.length + 1 < s.params.tokenPollLimit then tokenAt (received ++ [b]) rest s
      else raise .readBlock .timeoutDataToken .sReadToken (tokenRead (received ++ [b]) rest s) := by
  have hread : (tokenAt received (.byte b :: rest) s).readCntToken = .ok (received.length + 1) := rfl
  rw [tick_rbToken rfl, readToken, hread, withRead_ok, exchange_byte rfl, xfer_of_byte filler rfl]
  simp only [tokenAt, tokenRead, fillerReads_concat_reverse, List.length_append]
  rfl

/-- A poll from its start, through reads without a token and the step after them. -/
theorem runFor_tokenPoll {skipped : List Byte} {b : Byte} {rest : List Answer} {s : State} (hseq : s.seq = .rbToken)
    (hcnt : s.cntToken = .written 1) (hskipped : ∀ c ∈ skipped, c ≠ 0xFE#8) (hlen : skipped.length < s.params.tokenPollLimit)
    (hans : s.answers = bytesAnswered (skipped ++ [b]) ++ rest) :
    runFor (skipped.length + 1) s = tick (tokenAt skipped (.byte b :: rest) s) := by
  have hpoll : runFor skipped.length (tokenAt [] (bytesAnswered skipped ++ .byte b :: rest) s) = tokenAt skipped (.byte b :: rest) s := by
    refine runFor_bytes (f := fun bs answers => tokenAt bs answers s) skipped _ fun received c more answers h => ⟨rfl, ?_⟩
    have hc := hskipped c (by simp [h])
    have hmore : received.length + 1 ≤ skipped.length := by simp [h]
    rw [tick_tokenAt, isDataToken_eq_false hc, if_neg Bool.false_ne_true, if_pos (by omega)]
  rw [bytesAnswered_concat] at hans
  rw [← hans, tokenAt_start hseq hcnt] at hpoll
  rw [runFor_add, hpoll, runFor_running 0 rfl, runFor_zero]

/-! ## The payload -/

theorem tick_rbData {s : State} {k : Fin 512} (h : s.seq = .rbData k) : tick s = readData k s := by simp [tick, h]
theorem tick_rbCrc {s : State} {k : Fin 2} (h : s.seq = .rbCrc k) : tick s = readCrcByte k s := by simp [tick, h]
theorem tick_rbEnd {s : State} (h : s.seq = .rbEnd) : tick s = readEnd s := by simp [tick, h]

/-- BUF after bytes received from offset 0 on (R119). -/
def Memory.receive (m : Memory) (bs : List Byte) : Memory := bs.zipIdx.foldl (fun m' c => m'.put c.2 c.1) m

theorem receive_nil (m : Memory) : m.receive [] = m := rfl

theorem receive_concat (m : Memory) (bs : List Byte) (b : Byte) : m.receive (bs ++ [b]) = (m.receive bs).put bs.length b := by
  simp [Memory.receive, List.zipIdx_append]

/-- The bytes received are at their offsets, and every other offset is as it was. -/
theorem byteAt_receive (m : Memory) (bs : List Byte) (k : Nat) :
    (m.receive bs).byteAt k = if k < bs.length then bs[k]? else m.byteAt k := by
  induction bs using List.reverseRecOn with
  | nil => rfl
  | append_singleton bs b ih =>
    rw [receive_concat, List.length_append, List.length_singleton]
    obtain hlt | rfl | hgt := Nat.lt_trichotomy k bs.length
    · rw [byteAt_put_other _ _ (by omega), ih, if_pos hlt, if_pos (by omega), List.getElem?_append_left hlt]
    · rw [byteAt_put_same, if_pos (by omega), List.getElem?_concat_length]
    · rw [byteAt_put_other _ _ (by omega), ih, if_neg (by omega), if_neg (by omega)]

theorem receive_wf {m : Memory} {bs : List Byte} (hm : m.wf = true) (h : bs.length ≤ blockSize) : (m.receive bs).wf = true := by
  induction bs using List.reverseRecOn with
  | nil => exact hm
  | append_singleton bs b ih =>
    rw [List.length_append, List.length_singleton] at h
    rw [receive_concat]
    exact put_wf (ih (by omega)) (by omega)

theorem mem_of_byteAt {m : Memory} {k : Nat} {b : Byte} (h : m.byteAt k = some b) : (k, b) ∈ m := by
  induction m with
  | nil => cases h
  | cons c rest ih =>
    obtain ⟨j, d⟩ := c
    rw [Memory.byteAt] at h
    split at h
    · next hj => cases h; subst hj; exact List.mem_cons_self ..
    · exact List.mem_cons_of_mem _ (ih h)

/-- Nothing is outside BUF in its canonical form (R27). -/
theorem byteAt_outside {m : Memory} {k : Nat} (hm : m.wf = true) (h : blockSize ≤ k) : m.byteAt k = none := by
  obtain ⟨-, hinside⟩ := (wf_iff m).mp hm
  refine Option.eq_none_iff_forall_ne_some.mpr fun b hb => ?_
  have hlt := hinside _ (mem_of_byteAt hb)
  exact absurd hlt (Nat.not_lt.mpr h)

/-- A whole payload is all that BUF then holds. -/
theorem byteAt_receive_block {m : Memory} {data : List Byte} (hm : m.wf = true) (hdata : data.length = blockSize) (k : Nat) :
    (m.receive data).byteAt k = data[k]? := by
  rw [byteAt_receive]
  split
  · rfl
  · next hk => rw [byteAt_outside hm (by omega), List.getElem?_eq_none (by omega)]

/-- The label at which payload byte n is received, or the CRC bytes after the last (R119). -/
def dataSeq (n : Nat) : Seq := if h : n < 512 then .rbData ⟨n, h⟩ else .rbCrc 0

/-- The state of a payload that began in s, after these bytes (R119). -/
def dataAt (received : List Byte) (rest : List Answer) (s : State) : State :=
  { s with
    buf := s.buf.receive received
    seq := dataSeq received.length
    answers := rest
    history := (fillerReads s.csLevel received).reverse ++ s.history }

theorem dataAt_start {s : State} (hseq : s.seq = .rbData 0) : dataAt [] s.answers s = s := by
  simp [dataAt, dataSeq, fillerReads, receive_nil, ← hseq]

theorem tick_dataAt {received : List Byte} (b : Byte) (rest : List Answer) (s : State) (h : received.length < 512) :
    tick (dataAt received (.byte b :: rest) s) = dataAt (received ++ [b]) rest s := by
  have hseq : (dataAt received (.byte b :: rest) s).seq = .rbData ⟨received.length, h⟩ := dif_pos h
  rw [tick_rbData hseq, readData, exchange_byte rfl, memWrite_inside _ _ h, withRead_ok, xfer_of_byte filler rfl]
  simp only [dataAt, fillerReads_concat_reverse, receive_concat, List.length_append]
  rfl

/-- A payload from its start (R119). -/
theorem runFor_data {bytes : List Byte} {rest : List Answer} {s : State} (hseq : s.seq = .rbData 0) (hlen : bytes.length ≤ 512)
    (hans : s.answers = bytesAnswered bytes ++ rest) : runFor bytes.length s = dataAt bytes rest s := by
  have hrun := runFor_bytes (f := fun bs answers => dataAt bs answers s) bytes rest fun received b more answers h => by
    have hlt : received.length < 512 := by
      rw [h, List.length_append, List.length_cons] at hlen; omega
    exact ⟨by rw [dataAt, dataSeq, dif_pos hlt]; rfl, tick_dataAt b answers s hlt⟩
  rwa [← hans, dataAt_start hseq] at hrun

/-- A fault in the payload ends READ_BLOCK with what BUF then holds (R129). -/
theorem tick_dataAt_fault {received : List Byte} (rest : List Answer) (s : State) (h : received.length < 512) :
    tick (dataAt received (.fault :: rest) s) =
      raise .readBlock .transportFailure .sReadData (xfer filler (dataAt received (.fault :: rest) s)) := by
  have hseq : (dataAt received (.fault :: rest) s).seq = .rbData ⟨received.length, h⟩ := dif_pos h
  rw [tick_rbData hseq, readData, exchange_fault rfl]

/-! ## The CRC bytes and the return -/

/-- The two CRC bytes are read and discarded (R119). -/
theorem runFor_crc {c0 c1 : Byte} {rest : List Answer} {s : State} (hseq : s.seq = .rbCrc 0)
    (hans : s.answers = bytesAnswered [c0, c1] ++ rest) :
    runFor 2 s = { s with
      seq := .rbEnd, answers := rest, history := (fillerReads s.csLevel [c0, c1]).reverse ++ s.history } := by
  have hrun : s.seq.running = true := by rw [hseq]; rfl
  have hfirst : tick s = { s with
      seq := .rbCrc 1, answers := .byte c1 :: rest, history := .xfer s.csLevel filler c0 :: s.history } := by
    rw [tick_rbCrc hseq, readCrcByte, exchange_byte (nextAnswer_cons hans), xfer_of_byte filler hans]
    rfl
  rw [runFor_running 1 hrun, hfirst, runFor_running 0 rfl, tick_rbCrc rfl, readCrcByte, exchange_byte rfl,
    xfer_of_byte filler rfl]
  rfl

/-- What a read of a range gives is what is at its offsets. -/
theorem byteAt_of_memReadRange {n : Nat} {m : Memory} {offset : Nat} {bs : List Byte} (h : memReadRange m offset n = .ok bs) :
    bs.length = n ∧ ∀ i, i < n → m.byteAt (offset + i) = bs[i]? := by
  induction n generalizing m offset bs with
  | zero => cases h; exact ⟨rfl, nofun⟩
  | succ n ih =>
    rw [memReadRange] at h
    split at h
    · cases h
    · next k b more hdrop =>
      split at h
      · next hk =>
        split at h
        · next bs' hmore =>
          cases h
          obtain ⟨hlen, hbytes⟩ := ih hmore
          refine ⟨by rw [List.length_cons, hlen], fun i hi => ?_⟩
          rw [← byteAt_dropWhile (Nat.le_add_right offset i), hdrop, Memory.byteAt]
          cases i with
          | zero => rw [if_pos (by omega)]; rfl
          | succ i =>
            rw [if_neg (by omega), Nat.add_comm i, ← Nat.add_assoc, hbytes i (by omega), Nat.add_comm 1]
            rfl
        · cases h
      · cases h

/-- Reading BUF whole gives the block it holds (R120). -/
theorem memReadRange_eq {m : Memory} {data : List Byte} (hm : m.wf = true) (hlen : data.length = blockSize)
    (hbytes : ∀ k, k < blockSize → m.byteAt k = data[k]?) : memReadRange m 0 blockSize = .ok data := by
  have hsome : ∀ k, 0 ≤ k → k < 0 + blockSize → (m.byteAt k).isSome = true := by
    intro k _ hk
    rw [Nat.zero_add] at hk
    rw [hbytes k hk, List.getElem?_eq_getElem (hlen.symm ▸ hk)]; rfl
  obtain ⟨hpairwise, -⟩ := (wf_iff m).mp hm
  obtain ⟨bs, hbs⟩ := memReadRange_filled blockSize hpairwise hsome
  obtain ⟨hlen', hbytes'⟩ := byteAt_of_memReadRange hbs
  rw [hbs]
  refine congrArg Except.ok (List.ext_getElem? fun k => ?_)
  by_cases hk : k < blockSize
  · rw [← hbytes' k hk, Nat.zero_add, hbytes k hk]
  · rw [List.getElem?_eq_none (by omega), List.getElem?_eq_none (by omega)]

/-- RB_END returns the block BUF holds, and deselects (R120). -/
theorem tick_rbEnd_block {s : State} {data : List Byte} (hseq : s.seq = .rbEnd) (hwf : s.buf.wf = true)
    (hlen : data.length = blockSize) (hbytes : ∀ k, s.buf.byteAt k = data[k]?) :
    tick s = complete false (some (.block data)) (csSet .high s) := by
  rw [tick_rbEnd hseq, readEnd, memReadRange_eq hwf hlen fun k _ => hbytes k, withRead_ok]

/-! ## READ_BLOCK as a whole -/

theorem tick_rbSel {s : State} {a : Word32} (h : s.seq = .rbSel a) : tick s = readSelect a s := by simp [tick, h]

/-- From RB_SEL through an answered CMD17 to the data-token poll (R117). -/
theorem reaches_tokenPoll {a : Word32} {x : Reply} {rest : List Answer} {s : State} (hseq : s.seq = .rbSel a)
    (hok : x.ok s.params.respPollLimit) (hr1 : x.r1 = 0x00#8) (hans : s.answers = x.answers ++ rest) :
    Reaches s ({ commandReturned (.rbCmd17 a) x rest (readSelect a s) with cntToken := .written 1 }.goto .rbToken) := by
  have hrun : s.seq.running = true := by rw [hseq]; rfl
  refine reaches_trans (reaches_tick hrun (tick_rbSel hseq)) (reaches_answered (c := .rbCmd17 a) rfl hok hans ?_)
  rw [afterResponse, readAfterCmd17, if_pos (readyResponse_iff.mpr hr1)]

/-- From a data-token poll through the token, the payload and the CRC bytes to RB_END (R118, R119). -/
theorem reaches_rbEnd {skipped data crc : List Byte} {rest : List Answer} {s : State} (hseq : s.seq = .rbToken)
    (hcnt : s.cntToken = .written 1) (hskipped : ∀ b ∈ skipped, b ≠ 0xFE#8) (hpolls : skipped.length < s.params.tokenPollLimit)
    (hdata : data.length = 512) (hcrc : crc.length = 2)
    (hans : s.answers = bytesAnswered (skipped ++ [0xFE#8] ++ data ++ crc) ++ rest) :
    Reaches s { s with
      buf := s.buf.receive data
      cntToken := .written (skipped.length + 1)
      seq := .rbEnd
      answers := rest
      history := (fillerReads s.csLevel (skipped ++ [0xFE#8] ++ data ++ crc)).reverse ++ s.history } := by
  obtain ⟨c0, c1, rfl⟩ := List.length_eq_two.mp hcrc
  have hans' : s.answers = bytesAnswered (skipped ++ [0xFE#8]) ++ (bytesAnswered data ++ (bytesAnswered [c0, c1] ++ rest)) := by
    simp [hans, bytesAnswered]
  have htoken : Reaches s ((tokenRead (skipped ++ [0xFE#8]) (bytesAnswered data ++ (bytesAnswered [c0, c1] ++ rest)) s).goto
      (.rbData 0)) :=
    reaches_of_runFor ((runFor_tokenPoll hseq hcnt hskipped hpolls hans').trans ((tick_tokenAt ..).trans (if_pos rfl)))
  refine reaches_trans htoken (reaches_trans (reaches_of_runFor (runFor_data rfl hdata.le rfl))
    (reaches_of_runFor ((runFor_crc (dif_neg (by omega)) rfl).trans ?_)))
  simp [dataAt, tokenRead, State.goto, fillerReads]

end Sys2Proof.Machine

namespace Sys2Proof.Proofs

open Sys2Proof Sys2Proof.Machine

/-- Settles O38: every allowed read but the last keeps the poll going, and the last raises the timeout. -/
theorem tokenPollFailsAfterItsLimit : Obligations.TokenPollFailsAfterItsLimit := by
  intro s bytes rest hseq hcnt hlen hlimit hbytes hans
  obtain ⟨reads, b, rfl⟩ : ∃ reads b, bytes = reads ++ [b] :=
    (List.eq_nil_or_concat' bytes).resolve_left (List.ne_nil_of_length_pos (by omega))
  obtain ⟨hreads, hlast⟩ := List.forall_mem_append.mp hbytes
  have hb := List.forall_mem_singleton.mp hlast
  rw [List.length_append, List.length_singleton] at hlen
  rw [← hlen, runFor_tokenPoll hseq hcnt hreads (by omega) hans, tick_tokenAt, isDataToken_eq_false hb,
    if_neg Bool.false_ne_true, if_neg (by omega)]
  simp [raise, endOperation, errorResult, errorExit, csSet, tokenRead, State.log]

/-- Settles O37: after n bytes the payload is in `dataAt`, and a fault there keeps BUF. -/
theorem readDataFillsBufInOrder : Obligations.ReadDataFillsBufInOrder := by
  intro s bytes rest hseq hlen hans
  rw [runFor_data hseq hlen hans]
  refine ⟨byteAt_receive s.buf bytes, rfl, rfl, rfl, ?_⟩
  rintro hlt ⟨more, rfl⟩
  rw [tick_dataAt_fault more s hlt]
  exact ⟨raise_seq .., raise_result .., by rw [raise_buf, xfer_buf]⟩

/-- Settles O35: select, the answered CMD17, the token, the payload and the CRC bytes lead to RB_END, which returns BUF. -/
theorem readBlockReturnsThePayload : Obligations.ReadBlockReturnsThePayload := by
  intro s index a x rest hidle hready ha hbuf ⟨hok, hr1, hskipped, hpolls, hdata, hcrc⟩ hans
  rw [← transferAddress_ready index hidle hready] at ha
  rw [ReadScript.answers, List.append_assoc] at hans
  have hpoll := reaches_tokenPoll (a := a) (s := (s.log (.begun (.readBlock index))).goto (.rbSel a)) rfl hok hr1 hans
  have hend := reaches_trans hpoll (reaches_rbEnd rfl rfl hskipped hpolls hdata hcrc rfl)
  have hbytes := byteAt_receive_block hbuf hdata
  have hwf := receive_wf hbuf hdata.le
  have hdone := reaches_trans hend (reaches_tick rfl (tick_rbEnd_block rfl hwf hdata hbytes))
  refine ⟨_, exec_readBlock_address hidle ha, ?_⟩
  rw [runToIdle_of_reaches hdone rfl]
  refine ⟨?_, hwf, hbytes⟩
  simp [complete, endOperation, okResult, commandReturned, readSelect, csSet, State.log, State.goto, ReadScript.events,
    Issuer.index, Issuer.arg, hidle, hr1]

end Sys2Proof.Proofs

/-!
PROOFS, WRITE_BLOCK on a given script: the data packet goes out byte for byte (`packetAt`), and then the response token and the busy poll
decide (O40, O41, O42).
-/

/-! ## The data packet -/

namespace Sys2Proof.Machine

theorem tick_wbSel {s : State} {a : Word32} (h : s.seq = .wbSel a) : tick s = writeSelect a s := by simp [tick, h]
theorem tick_wbGap {s : State} {k : Nat} (h : s.seq = .wbGap k) : tick s = writeGap k s := by simp [tick, h]
theorem tick_wbToken {s : State} (h : s.seq = .wbToken) : tick s = writeToken s := by simp [tick, h]
theorem tick_wbData {s : State} {k : Fin 512} (h : s.seq = .wbData k) : tick s = writeData k s := by simp [tick, h]
theorem tick_wbCrc {s : State} {k : Fin 2} (h : s.seq = .wbCrc k) : tick s = writeCrcByte k s := by simp [tick, h]
theorem tick_wbResp {s : State} (h : s.seq = .wbResp) : tick s = writeResponse s := by simp [tick, h]

/-- The label at which byte n of the packet goes out, or the response token's after the last (R65, R123, R124). -/
def packetSeq (p : Params) (n : Nat) : Seq :=
  if n < p.writeGapBytes then .wbGap n
  else if n = p.writeGapBytes then .wbToken
  else if h : n - p.writeGapBytes - 1 < 512 then .wbData ⟨n - p.writeGapBytes - 1, h⟩
  else if h : n - p.writeGapBytes - 513 < 2 then .wbCrc ⟨n - p.writeGapBytes - 513, h⟩
  else .wbResp

theorem packetSeq_gap {p : Params} {n : Nat} (h : n < p.writeGapBytes) : packetSeq p n = .wbGap n := if_pos h

theorem packetSeq_token (p : Params) : packetSeq p p.writeGapBytes = .wbToken := by
  rw [packetSeq, if_neg (Nat.lt_irrefl _), if_pos rfl]

theorem packetSeq_data (p : Params) (k : Fin 512) : packetSeq p (p.writeGapBytes + 1 + k.val) = .wbData k := by
  have hk : p.writeGapBytes + 1 + k.val - p.writeGapBytes - 1 = k.val := by omega
  simp only [packetSeq, hk]
  rw [if_neg (by omega), if_neg (by omega), dif_pos k.isLt]

theorem packetSeq_crc (p : Params) (k : Fin 2) : packetSeq p (p.writeGapBytes + 513 + k.val) = .wbCrc k := by
  have hk : p.writeGapBytes + 513 + k.val - p.writeGapBytes - 513 = k.val := by omega
  simp only [packetSeq, hk]
  rw [if_neg (by omega), if_neg (by omega), dif_neg (by omega), dif_pos k.isLt]

theorem packetSeq_end (p : Params) : packetSeq p (p.writeGapBytes + 515) = .wbResp := by
  rw [packetSeq, if_neg (by omega), if_neg (by omega), dif_neg (by omega), dif_neg (by omega)]

theorem packetSeq_succ_gap {p : Params} {n : Nat} (h : n < p.writeGapBytes) :
    packetSeq p (n + 1) = if n + 1 < p.writeGapBytes then .wbGap (n + 1) else .wbToken := by
  split
  · next hlt => exact packetSeq_gap hlt
  · next hge =>
    have hlast : n + 1 = p.writeGapBytes := by omega
    rw [hlast, packetSeq_token]

theorem packetSeq_succ_data (p : Params) (k : Fin 512) : packetSeq p (p.writeGapBytes + 1 + k.val + 1) =
    if h : k.val + 1 < 512 then .wbData ⟨k.val + 1, h⟩ else .wbCrc 0 := by
  split
  · next hlt => exact packetSeq_data p ⟨k.val + 1, hlt⟩
  · next hge =>
    have hlast : p.writeGapBytes + 1 + k.val + 1 = p.writeGapBytes + 513 := by omega
    rw [hlast]
    exact packetSeq_crc p 0

theorem packetSeq_succ_crc (p : Params) (k : Fin 2) : packetSeq p (p.writeGapBytes + 513 + k.val + 1) =
    if k.val + 1 < 2 then .wbCrc 1 else .wbResp := by
  fin_cases k
  · exact packetSeq_crc p 1
  · exact packetSeq_end p

theorem packetBytes_length {p : Params} {data : List Byte} (h : data.length = 512) :
    (packetBytes p data).length = p.writeGapBytes + 515 := by
  simp [packetBytes, h]

theorem packetBytes_gap {p : Params} {n : Nat} (data : List Byte) (h : n < p.writeGapBytes) :
    (packetBytes p data)[n]? = some filler := by
  simp [packetBytes, List.getElem?_append, h, filler]

theorem packetBytes_token (p : Params) (data : List Byte) : (packetBytes p data)[p.writeGapBytes]? = some dataToken := by
  simp [packetBytes, dataToken]

theorem packetBytes_data (p : Params) {data : List Byte} (k : Nat) (h : k < data.length) :
    (packetBytes p data)[p.writeGapBytes + 1 + k]? = some data[k] := by
  have hpre : (List.replicate p.writeGapBytes 0xFF#8 ++ [0xFE#8]).length = p.writeGapBytes + 1 := by simp
  rw [packetBytes, List.append_assoc, List.getElem?_append_right (by omega), hpre, Nat.add_sub_cancel_left,
    List.getElem?_append_left h, List.getElem?_eq_getElem h]

theorem packetBytes_crc (p : Params) {data : List Byte} (k : Fin 2) (h : data.length = 512) :
    (packetBytes p data)[p.writeGapBytes + 513 + k.val]? =
      some (if k.val = 0 then p.crcPlaceholder0 else p.crcPlaceholder1) := by
  have hpre : (List.replicate p.writeGapBytes 0xFF#8 ++ [0xFE#8] ++ data).length = p.writeGapBytes + 513 := by simp [h]
  rw [packetBytes, List.getElem?_append_right (by omega), hpre, Nat.add_sub_cancel_left]
  fin_cases k <;> rfl

/-- The state of a packet that began in s, after exchanges that received these bytes, with the block in BUF; `rest` are the answers still
to come (R123). -/
def packetAt (data received : List Byte) (rest : List Answer) (s : State) : State :=
  { s with
    buf := cellsFrom 0 data
    seq := packetSeq s.params received.length
    answers := rest
    history := (List.zipWith (fun out b => .xfer s.csLevel out b) (packetBytes s.params data) received).reverse ++ s.history }

theorem memRead_block {data : List Byte} {k : Nat} (h : k < data.length) (hk : k < blockSize) :
    memRead (cellsFrom 0 data) k = .ok data[k] := by
  have hbyte := byteAt_cellsFrom 0 k data
  rw [Nat.zero_add, List.getElem?_eq_getElem h] at hbyte
  rw [memRead, if_pos hk, hbyte, readPresent_some]

/-- Each step of the packet is an exchange of its next byte, and leads to the next label. -/
theorem tick_packetAt {data received : List Byte} (b : Byte) (rest : List Answer) (s : State) (hdata : data.length = 512)
    (hlen : received.length < s.params.writeGapBytes + 515) :
    ∃ out, (packetBytes s.params data)[received.length]? = some out ∧
      tick (packetAt data received (.byte b :: rest) s) =
        (xfer out (packetAt data received (.byte b :: rest) s)).goto (packetSeq s.params (received.length + 1)) := by
  have hseq : (packetAt data received (.byte b :: rest) s).seq = packetSeq s.params received.length := rfl
  generalize received.length = n at hlen hseq ⊢
  have hcases : n < s.params.writeGapBytes ∨ n = s.params.writeGapBytes ∨
      (∃ k : Fin 512, n = s.params.writeGapBytes + 1 + k.val) ∨ ∃ k : Fin 2, n = s.params.writeGapBytes + 513 + k.val := by
    by_cases hgap : n ≤ s.params.writeGapBytes
    · omega
    · by_cases hblock : n < s.params.writeGapBytes + 513
      · exact .inr (.inr (.inl ⟨⟨n - s.params.writeGapBytes - 1, by omega⟩, by simp only; omega⟩))
      · exact .inr (.inr (.inr ⟨⟨n - s.params.writeGapBytes - 513, by omega⟩, by simp only; omega⟩))
  obtain hgap | rfl | ⟨k, rfl⟩ | ⟨k, rfl⟩ := hcases
  · refine ⟨_, packetBytes_gap data hgap, ?_⟩
    rw [packetSeq_gap hgap] at hseq
    rw [tick_wbGap hseq, writeGap, exchange_byte rfl, packetSeq_succ_gap hgap]
    rfl
  · refine ⟨_, packetBytes_token s.params data, ?_⟩
    rw [packetSeq_token] at hseq
    rw [tick_wbToken hseq, writeToken, exchange_byte rfl]
    exact congrArg _ (packetSeq_data s.params 0).symm
  · have hk : k.val < data.length := by omega
    refine ⟨_, packetBytes_data s.params k.val hk, ?_⟩
    rw [packetSeq_data] at hseq
    rw [tick_wbData hseq, writeData, packetAt, memRead_block hk k.isLt, withRead_ok, exchange_byte rfl, packetSeq_succ_data]
  · refine ⟨_, packetBytes_crc s.params k hdata, ?_⟩
    rw [packetSeq_crc] at hseq
    rw [tick_wbCrc hseq, writeCrcByte, exchange_byte rfl, packetSeq_succ_crc]
    rfl

theorem tick_packetAt_byte {data received : List Byte} (b : Byte) (rest : List Answer) (s : State) (hdata : data.length = 512)
    (hlen : received.length < s.params.writeGapBytes + 515) :
    tick (packetAt data received (.byte b :: rest) s) = packetAt data (received ++ [b]) rest s := by
  obtain ⟨out, hout, htick⟩ := tick_packetAt b rest s hdata hlen
  rw [htick, xfer_of_byte out rfl]
  simp [packetAt, State.goto, zipWith_concat _ b hout]

theorem packetAt_start {data : List Byte} {s : State} (hseq : s.seq = packetSeq s.params 0) (hbuf : s.buf = cellsFrom 0 data) :
    packetAt data [] s.answers s = s := by
  simp [packetAt, ← hseq, ← hbuf]

/-- A packet from its first byte to the response token's label, whatever bytes are received meanwhile (R123). -/
theorem runFor_packet {data junk : List Byte} {rest : List Answer} {s : State} (hseq : s.seq = packetSeq s.params 0)
    (hbuf : s.buf = cellsFrom 0 data) (hdata : data.length = 512) (hjunk : junk.length = s.params.writeGapBytes + 515)
    (hans : s.answers = bytesAnswered junk ++ rest) : runFor junk.length s = packetAt data junk rest s := by
  have hrun := runFor_bytes (f := fun bs answers => packetAt data bs answers s) junk rest fun received b more answers h => by
    have hlt : received.length < s.params.writeGapBytes + 515 := by
      rw [h, List.length_append, List.length_cons] at hjunk; omega
    refine ⟨?_, tick_packetAt_byte b answers s hdata hlt⟩
    rw [packetAt, packetSeq]
    split_ifs <;> rfl
  rwa [← hans, packetAt_start hseq hbuf] at hrun

/-! ## WRITE_BLOCK as a whole -/

/-- The label after CMD24 is the packet's first: the gap, if there is one, or the token (R122, R123). -/
theorem packetSeq_zero (p : Params) : packetSeq p 0 = if p.writeGapBytes = 0 then .wbToken else .wbGap 0 := by
  split
  · next hgap => rw [← packetSeq_token p, hgap]
  · next hgap => exact packetSeq_gap (by omega)

/-- The state of a WRITE_BLOCK that began in s when the response token is to be read, on any card that took CMD24 (R122, R123). -/
def packetSent (index a : Word32) (data : List Byte) (x : WriteScript) (rest : List Answer) (s : State) : State :=
  { s with
    csLevel := .low
    frame := .written (frameOf 24#6 a)
    crc := .written (frameCrc 24#6 a)
    r1 := .written 0x00#8
    buf := cellsFrom 0 data
    cntResp := .written (x.cmd24.delay + 1)
    seq := .wbResp
    answers := rest
    history := (List.zipWith (fun out b => .xfer .low out b) (packetBytes s.params data) x.junk).reverse ++
      ((x.cmd24.events .low 24#6 a).reverse ++ .pin .low :: .begun (.writeBlock index data) :: s.history) }

theorem reaches_packetSent {index a : Word32} {data : List Byte} {x : WriteScript} {rest : List Answer} {s : State}
    (hdata : data.length = 512) (hsent : x.sent s.params data) (hans : s.answers = x.cmd24.answers ++ (bytesAnswered x.junk ++ rest)) :
    Reaches ({ s.log (.begun (.writeBlock index data)) with buf := cellsFrom 0 data }.goto (.wbSel a))
      (packetSent index a data x rest s) := by
  obtain ⟨hok, hr1, hjunk⟩ := hsent
  rw [packetBytes_length hdata] at hjunk
  refine reaches_trans (reaches_tick rfl (tick_wbSel rfl)) (reaches_trans (reaches_answered (c := .wbCmd24 a) rfl hok hans rfl) ?_)
  rw [afterResponse, writeAfterCmd24, if_pos (readyResponse_iff.mpr hr1), ← packetSeq_zero]
  refine reaches_of_runFor (Eq.trans (runFor_packet (junk := x.junk) rfl rfl hdata ?_ rfl) ?_)
  · exact hjunk
  · simp [packetAt, packetSent, commandReturned, writeSelect, State.goto, State.log, csSet, hjunk, packetSeq_end, hr1, Issuer.index,
      Issuer.arg]

/-- The low nibble 0b0101 accepts the write (R66). -/
theorem dataAccepted_iff {t : Byte} : dataAccepted t = true ↔ t.toNat % 16 = 5 := by
  have hnibble : (t &&& 0x0F#8).toNat = t.toNat % 16 := by
    rw [BitVec.toNat_and]
    exact Nat.and_two_pow_sub_one_eq_mod t.toNat 4
  rw [dataAccepted, beq_iff_eq, ← BitVec.toNat_inj, hnibble]
  rfl

/-- The state after the response token has been read, before the sequencer goes on (R124). -/
def responseRead (t : Byte) (rest : List Answer) (s : State) : State :=
  { s with answers := rest, history := .xfer s.csLevel filler t :: s.history }

/-- The response token accepts the write, and the busy poll follows, or it is BadResponse (R124). -/
theorem tick_response {t : Byte} {rest : List Answer} {s : State} (hseq : s.seq = .wbResp) (hans : s.answers = .byte t :: rest) :
    tick s = if dataAccepted t then { responseRead t rest s with cntBusy := .written 1 }.goto .wbBusy
      else raise .writeBlock .badResponse .sDataResp (responseRead t rest s) := by
  rw [tick_wbResp hseq, writeResponse, exchange_byte (nextAnswer_cons hans), xfer_of_byte filler hans]
  rfl

/-- From the response token of an accepted write through its busy poll to its end, whether the card becomes ready or not (R124 to
R126). -/
theorem reaches_writeEnd {t b : Byte} {reads : List Byte} {rest : List Answer} {s : State} (hseq : s.seq = .wbResp)
    (ht : dataAccepted t = true) (hreads : ∀ c ∈ reads, c ≠ 0xFF#8) (hlen : reads.length < s.params.busyPollLimit)
    (hlast : b = 0xFF#8 ∨ reads.length + 1 = s.params.busyPollLimit)
    (hans : s.answers = .byte t :: (bytesAnswered (reads ++ [b]) ++ rest)) :
    Reaches s (writeEnd (!notBusy b) (busyOver (!notBusy b) (reads ++ [b]) rest (responseRead t rest s))) := by
  have hrun : s.seq.running = true := by rw [hseq]; rfl
  exact reaches_trans (reaches_tick hrun ((tick_response hseq hans).trans (if_pos ht)))
    (reaches_of_runFor (runFor_busy rfl rfl hreads hlen hlast rfl))

/-- An accepted WRITE_BLOCK as a whole, whether the card becomes ready or not; u is the state after its last exchange (R121 to R126). -/
theorem exec_writeBlock_accepted {index a : Word32} {data reads : List Byte} {b : Byte} {x : WriteScript} {rest : List Answer}
    {s : State} (hidle : s.seq = .idle) (hready : s.initState = .ready) (ha : wireAddress s.cap index = .ok a)
    (hdata : data.length = 512) (hsent : x.sent s.params data) (hresp : x.response.toNat % 16 = 5) (hbusy : x.busy = reads ++ [b])
    (hreads : ∀ c ∈ reads, c ≠ 0xFF#8) (hlen : reads.length < s.params.busyPollLimit)
    (hlast : b = 0xFF#8 ∨ reads.length + 1 = s.params.busyPollLimit) (hans : s.answers = x.answers ++ rest) :
    exec (.writeBlock index data) s = .next { s with
      csLevel := .high
      result := .written { status := .ok, step := none, busyExhausted := !notBusy b, value := none }
      crc := .written (frameCrc 24#6 a)
      frame := .written (frameOf 24#6 a)
      r1 := .written 0x00#8
      buf := cellsFrom 0 data
      cntResp := .written (x.cmd24.delay + 1)
      cntBusy := .written x.busy.length
      answers := rest
      history := .ended { status := .ok, step := none, busyExhausted := !notBusy b, value := none } :: .pin .high ::
        ((x.events s.params index a data).reverse ++ s.history) } := by
  have hans' : s.answers =
      x.cmd24.answers ++ (bytesAnswered x.junk ++ (.byte x.response :: (bytesAnswered (reads ++ [b]) ++ rest))) := by
    simp [hans, WriteScript.answers, bytesAnswered, hbusy]
  rw [← transferAddress_ready index hidle hready] at ha
  rw [exec_writeBlock_address hidle hdata ha, runToIdle_of_reaches (reaches_trans (reaches_packetSent hdata hsent hans')
    (reaches_writeEnd rfl (dataAccepted_iff.mpr hresp) hreads hlen hlast rfl)) rfl]
  simp [writeEnd, complete, endOperation, okResult, busyOver, responseRead, packetSent, csSet, State.log, WriteScript.events,
    fillerReads, filler, hbusy, hidle]

end Sys2Proof.Machine

namespace Sys2Proof.Proofs

open Sys2Proof Sys2Proof.Machine

/-- Settles O40: the accepted write whose last read of the busy poll is 0xFF. -/
theorem writeBlockSendsTheBlock : Obligations.WriteBlockSendsTheBlock := by
  intro s index a data x rest hidle hready ha hdata ⟨hsent, hresp, reads, hbusy, hreads, hlen⟩ hans
  exact exec_writeBlock_accepted hidle hready ha hdata hsent hresp hbusy hreads hlen (.inl rfl) hans

/-- Settles O41: the accepted write whose busy poll gets no 0xFF, its last read being the last allowed one. -/
theorem busyCardIsASoftCondition : Obligations.BusyCardIsASoftCondition := by
  intro s index a data x rest hidle hready ha hdata hlimit ⟨hsent, hresp, hbytes, hlen⟩ hans
  obtain ⟨reads, b, hbusy⟩ : ∃ reads b, x.busy = reads ++ [b] :=
    (List.eq_nil_or_concat' x.busy).resolve_left (List.ne_nil_of_length_pos (by omega))
  rw [hbusy] at hbytes
  obtain ⟨hreads, hlast⟩ := List.forall_mem_append.mp hbytes
  have hb := notBusy_eq_false (hlast b (List.mem_singleton_self b))
  have hcount : reads.length + 1 = s.params.busyPollLimit := by rw [← hlen, hbusy, List.length_append, List.length_singleton]
  have hexec := exec_writeBlock_accepted hidle hready ha hdata hsent hresp hbusy hreads (by omega) (.inr hcount) hans
  rwa [hb, hlen] at hexec

/-- Settles O42: the response token rejects the write, and `raise` ends it there. -/
theorem rejectedWriteDeselectsAtOnce : Obligations.RejectedWriteDeselectsAtOnce := by
  intro s index a data x rest hidle hready ha hdata ⟨hsent, hresp, hbusy⟩ hans
  have hans' : s.answers = x.cmd24.answers ++ (bytesAnswered x.junk ++ (.byte x.response :: rest)) := by
    simp [hans, WriteScript.answers, bytesAnswered, hbusy]
  have hrejected := tick_response (s := packetSent index a data x (.byte x.response :: rest) s) rfl rfl
  rw [if_neg (mt dataAccepted_iff.mp hresp)] at hrejected
  rw [← transferAddress_ready index hidle hready] at ha
  rw [exec_writeBlock_address hidle hdata ha, runToIdle_of_reaches
    (reaches_trans (reaches_packetSent hdata hsent hans') (reaches_tick rfl hrejected)) rfl]
  simp [raise, endOperation, errorResult, responseRead, packetSent, csSet, State.log, WriteScript.events,
    fillerReads, filler, hbusy, hidle]

end Sys2Proof.Proofs

/-!
PROOFS, INIT on a given script: the capacity decision (O31), and the whole operation (O27) as four runs: the power-up clocking, CMD0 and
CMD8 with its tail, the poll, and from CMD58 to the end. Of the registers that a later run writes again only their being there is said.
-/

/-! ## The OCR -/

namespace Sys2Proof.Machine

theorem tick_iDesel {s : State} (h : s.seq = .iDesel) : tick s = initDeselect s := by simp [tick, h]
theorem tick_iDummy {s : State} {k : Nat} (h : s.seq = .iDummy k) : tick s = initDummy k s := by simp [tick, h]
theorem tick_iSel {s : State} (h : s.seq = .iSel) : tick s = initSelect s := by simp [tick, h]
theorem tick_iOcr {s : State} {k : Fin 4} (h : s.seq = .iOcr k) : tick s = initOcr k s := by simp [tick, h]
theorem tick_iEnd {s : State} (h : s.seq = .iEnd) : tick s = initEnd s := by simp [tick, h]

/-- What the read of TAIL[k] leads to: the next one, or the capacity decision (R105, R106). -/
theorem tick_ocr_byte {k : Fin 4} {b : Byte} {rest : List Answer} {s : State} (hseq : s.seq = .iOcr k)
    (hans : s.answers = .byte b :: rest) :
    tick s = if h : k.val + 1 < 4 then (tailRead k b rest s).goto (.iOcr ⟨k.val + 1, h⟩)
      else initDecideCapacity (tailRead k b rest s) := by
  rw [tick_iOcr hseq, initOcr, exchange_byte (nextAnswer_cons hans), xfer_of_byte filler hans]
  rfl

/-- The four OCR bytes are in TAIL, and the capacity is decided (R105). -/
theorem runFor_ocr {o0 o1 o2 o3 : Byte} {rest : List Answer} {s : State} (hseq : s.seq = .iOcr 0)
    (hans : s.answers = bytesAnswered [o0, o1, o2, o3] ++ rest) :
    runFor 4 s = initDecideCapacity ((tailReceived o0 o1 o2 o3 rest s).goto (.iOcr 3)) := by
  have hrun : s.seq.running = true := by rw [hseq]; rfl
  rw [runFor_running 3 hrun, tick_ocr_byte hseq hans, dif_pos (by decide),
    runFor_running 2 rfl, tick_ocr_byte rfl rfl, dif_pos (by decide),
    runFor_running 1 rfl, tick_ocr_byte rfl rfl, dif_pos (by decide),
    runFor_running 0 rfl, tick_ocr_byte rfl rfl, dif_neg (by decide), runFor_zero]
  simp [tailRead, tailReceived, Tail.set, State.goto, fillerReads, filler]

/-- The decision, by the legacy flag and the first OCR byte (R106, R107). -/
theorem initDecideCapacity_ocr {o0 o1 o2 o3 : Byte} {rest : List Answer} {s : State} {legacy : Bool}
    (hlegacy : s.legacy = .written legacy) :
    initDecideCapacity ((tailReceived o0 o1 o2 o3 rest s).goto (.iOcr 3)) =
      { tailReceived o0 o1 o2 o3 rest s with cap := capacityOf legacy o0 }.goto
        (if capacityOf legacy o0 = Cap.standard then .cmd .iCmd16 (.tx 0) else .iEnd) := by
  have hread : ((tailReceived o0 o1 o2 o3 rest s).goto (.iOcr 3)).readLegacy = .ok legacy := by
    rw [State.readLegacy, goto_legacy]
    exact congrArg (readRegister .legacy) hlegacy
  rw [initDecideCapacity, hread, withRead_ok]
  rfl

/-- TAIL[0][6], by arithmetic on the byte (R63). -/
theorem ocrCapacityBit_iff {b : Byte} : ocrCapacityBit b = true ↔ b.toNat / 64 % 2 = 1 := by
  rw [ocrCapacityBit, BitVec.getLsbD, Nat.testBit_eq_decide_div_mod_eq, decide_eq_true_iff]

/-! ## The power-up clocking -/

/-- The label at which dummy byte n goes out, or I_SEL after the last (R99). -/
def dummySeq (p : Params) (n : Nat) : Seq := if n < p.powerupDummyBytes then .iDummy n else .iSel

/-- The state of a power-up clocking that began in s, after these bytes (R99). -/
def dummyAt (received : List Byte) (rest : List Answer) (s : State) : State :=
  { s with
    seq := dummySeq s.params received.length
    answers := rest
    history := (fillerReads s.csLevel received).reverse ++ s.history }

theorem dummyAt_start {s : State} (hseq : s.seq = dummySeq s.params 0) : dummyAt [] s.answers s = s := by
  simp [dummyAt, fillerReads, ← hseq]

theorem tick_dummyAt {received : List Byte} (b : Byte) (rest : List Answer) (s : State)
    (h : received.length < s.params.powerupDummyBytes) :
    tick (dummyAt received (.byte b :: rest) s) = dummyAt (received ++ [b]) rest s := by
  have hseq : (dummyAt received (.byte b :: rest) s).seq = .iDummy received.length := if_pos h
  rw [tick_iDummy hseq, initDummy, exchange_byte rfl, xfer_of_byte filler rfl]
  simp only [dummyAt, fillerReads_concat_reverse, List.length_append]
  rfl

theorem runFor_dummies {bytes : List Byte} {rest : List Answer} {s : State} (hseq : s.seq = dummySeq s.params 0)
    (hlen : bytes.length = s.params.powerupDummyBytes) (hans : s.answers = bytesAnswered bytes ++ rest) :
    runFor bytes.length s = dummyAt bytes rest s := by
  have hrun := runFor_bytes (f := fun bs answers => dummyAt bs answers s) bytes rest fun received b more answers h => by
    have hlt : received.length < s.params.powerupDummyBytes := by
      rw [h, List.length_append, List.length_cons] at hlen; omega
    exact ⟨by rw [dummyAt, dummySeq, if_pos hlt]; rfl, tick_dummyAt b answers s hlt⟩
  rwa [← hans, dummyAt_start hseq] at hrun

/-- After the deselect the first dummy byte goes out, or the card is selected where there is none (R99). -/
theorem dummySeq_zero (p : Params) : dummySeq p 0 = if p.powerupDummyBytes = 0 then .iSel else .iDummy 0 := by
  rw [dummySeq]
  by_cases h : p.powerupDummyBytes = 0
  · rw [if_neg (by omega), if_pos h]
  · rw [if_pos (Nat.pos_of_ne_zero h), if_neg h]

/-- The state at CMD0 of an INIT that began in s, with the card selected after the power-up clocking (R99). -/
def selectedAt (received : List Byte) (rest : List Answer) (s : State) : State :=
  { s with
    csLevel := .low
    seq := .cmd .iCmd0 (.tx 0)
    answers := rest
    history := .pin .low :: ((fillerReads .high received).reverse ++ .pin .high :: s.history) }

/-- From I_DESEL to CMD0 with the card selected (R99). -/
theorem reaches_selected {bytes : List Byte} {rest : List Answer} {s : State} (hseq : s.seq = .iDesel)
    (hlen : bytes.length = s.params.powerupDummyBytes) (hans : s.answers = bytesAnswered bytes ++ rest) :
    Reaches s (selectedAt bytes rest s) := by
  have hrun : s.seq.running = true := by rw [hseq]; rfl
  have hdesel : tick s = (csSet .high s).goto (dummySeq s.params 0) := by rw [tick_iDesel hseq, initDeselect, ← dummySeq_zero]
  have hdummies := runFor_dummies (s := (csSet .high s).goto (dummySeq s.params 0)) rfl hlen hans
  have hsel : (dummyAt bytes rest ((csSet .high s).goto (dummySeq s.params 0))).seq = .iSel :=
    if_neg (by rw [hlen]; exact Nat.lt_irrefl _)
  exact reaches_trans (reaches_tick hrun hdesel) (reaches_trans (reaches_of_runFor hdummies)
    (reaches_tick (by rw [hsel]; rfl) (tick_iSel hsel)))

/-! ## CMD0 and CMD8 -/

/-- From s to t INIT wrote no register but the scratch registers of its commands, LEGACY and CNT_POLL. -/
structure ScratchOnly (s t : State) : Prop where
  csLevel   : t.csLevel = s.csLevel
  initState : t.initState = s.initState
  cap       : t.cap = s.cap
  result    : t.result = s.result
  buf       : t.buf = s.buf
  cntToken  : t.cntToken = s.cntToken
  cntBusy   : t.cntBusy = s.cntBusy
  draws     : t.draws = s.draws
  requests  : t.requests = s.requests
  params    : t.params = s.params

/-- From s INIT comes to t at a label, with these answers still to come, and these events in time order. -/
structure InitComesTo (l : Seq) (es : List Event) (rest : List Answer) (s t : State) : Prop where
  reaches : Reaches s t
  scratch : ScratchOnly s t
  seq     : t.seq = l
  answers : t.answers = rest
  history : t.history = es.reverse ++ s.history

theorem scratchOnly_trans {s t u : State} (hst : ScratchOnly s t) (htu : ScratchOnly t u) : ScratchOnly s u where
  csLevel   := htu.csLevel.trans hst.csLevel
  initState := htu.initState.trans hst.initState
  cap       := htu.cap.trans hst.cap
  result    := htu.result.trans hst.result
  buf       := htu.buf.trans hst.buf
  cntToken  := htu.cntToken.trans hst.cntToken
  cntBusy   := htu.cntBusy.trans hst.cntBusy
  draws     := htu.draws.trans hst.draws
  requests  := htu.requests.trans hst.requests
  params    := htu.params.trans hst.params

theorem initComesTo_trans {l m : Seq} {es fs : List Event} {mid rest : List Answer} {s t u : State}
    (hst : InitComesTo l es mid s t) (htu : InitComesTo m fs rest t u) : InitComesTo m (es ++ fs) rest s u where
  reaches := reaches_trans hst.reaches htu.reaches
  scratch := scratchOnly_trans hst.scratch htu.scratch
  seq     := htu.seq
  answers := htu.answers
  history := by rw [htu.history, hst.history, List.reverse_append, List.append_assoc]

/-- CMD0 answered with 0x01 leads to CMD8 (R100). -/
theorem initComesTo_cmd8 {a : Reply} {rest : List Answer} {s : State} (hseq : s.seq = .cmd .iCmd0 (.tx 0))
    (hcs : s.csLevel = .low) (hok : a.ok s.params.respPollLimit) (hr1 : a.r1 = 0x01#8) (hans : s.answers = a.answers ++ rest) :
    ∃ t, InitComesTo (.cmd .iCmd8 (.tx 0)) (a.events .low 0#6 0#32) rest s t ∧ t.legacy = s.legacy := by
  have hreturned := reaches_answered hseq hok hans (if_pos (idleResponse_iff.mpr hr1))
  refine ⟨_, ⟨hreturned, by constructor <;> rfl, rfl, rfl, ?_⟩, rfl⟩
  rw [← hcs]; rfl

/-- From an answered CMD8 to the poll: a legacy card has no tail, and another's echo is good (R101, R102). -/
theorem initComesTo_poll {x : InitScript} {rest : List Answer} {s : State} (hseq : s.seq = .cmd .iCmd8 (.tx 0))
    (hcs : s.csLevel = .low) (hlegacy : s.legacy = .written false) (hok : x.cmd8.ok s.params.respPollLimit)
    (htail : if x.legacy = true then x.tail = [] else ∃ t0 t1, x.tail = [t0, t1, 0x01#8, 0xAA#8])
    (hans : s.answers = x.cmd8.answers ++ (bytesAnswered x.tail ++ rest)) :
    ∃ t, InitComesTo (.cmd .iCmd55 (.tx 0)) (x.cmd8.events .low 8#6 cmd8Arg ++ fillerReads .low x.tail) rest s t ∧
      t.legacy = .written x.legacy ∧ t.cntPoll = .written 1 := by
  have hreturned := reaches_answered hseq hok hans rfl
  rw [afterResponse, initAfterCmd8] at hreturned
  cases hl : x.legacy with
  | true =>
    rw [hl, if_pos rfl] at htail
    rw [InitScript.legacy] at hl
    rw [hl, if_pos rfl, htail] at hreturned
    refine ⟨_, ⟨hreturned, by constructor <;> rfl, rfl, rfl, ?_⟩, rfl, rfl⟩
    rw [htail, ← hcs]
    simp [initEnterPoll, commandReturned, fillerReads, Issuer.index, Issuer.arg]
  | false =>
    rw [hl, if_neg Bool.false_ne_true] at htail
    rw [InitScript.legacy] at hl
    obtain ⟨t0, t1, htail⟩ := htail
    rw [hl, if_neg Bool.false_ne_true, htail] at hreturned
    have hecho := reaches_of_runFor (runFor_cmd8Tail (t0 := t0) (t1 := t1) (t2 := 0x01#8) (t3 := 0xAA#8) (rest := rest)
      (s := (commandReturned .iCmd8 x.cmd8 (bytesAnswered [t0, t1, 0x01#8, 0xAA#8] ++ rest) s).goto (.iCmd8Tail 0)) rfl rfl)
    rw [initCheckEcho_tailReceived, if_pos ⟨rfl, rfl⟩] at hecho
    refine ⟨_, ⟨reaches_trans hreturned hecho, by constructor <;> rfl, rfl, rfl, ?_⟩, hlegacy, rfl⟩
    rw [htail, ← hcs]
    simp [initEnterPoll, commandReturned, tailReceived, Issuer.index, Issuer.arg]

/-! ## The poll -/

/-- The iteration whose ACMD41 is ready leads to CMD58 (R103). -/
theorem initComesTo_lastIteration {q : PollReply} {rest : List Answer} {s : State} (hseq : s.seq = .cmd .iCmd55 (.tx 0))
    (hcs : s.csLevel = .low) (hok : q.ok s.params.respPollLimit) (hr1 : q.acmd41.r1 = 0x00#8)
    (hans : s.answers = q.answers ++ rest) :
    ∃ t, InitComesTo (.cmd .iCmd58 (.tx 0)) q.events rest s t ∧ t.legacy = s.legacy ∧ t.cntPoll = s.cntPoll :=
  ⟨_, ⟨reaches_of_runFor ((runFor_iteration hseq hok hans).trans (if_pos (readyResponse_iff.mpr hr1))), by constructor <;> rfl,
    rfl, rfl, pollReturned_history rest hcs⟩, rfl, rfl⟩

/-- The iterations that are not ready, and the last one, lead to CMD58 (R103). -/
theorem initComesTo_cmd58 {polls : List PollReply} {last : PollReply} {rest : List Answer} {s : State}
    (hseq : s.seq = .cmd .iCmd55 (.tx 0)) (hcnt : s.cntPoll = .written 1) (hcs : s.csLevel = .low)
    (hlen : polls.length < s.params.ocrPollLimit) (hpolls : ∀ q ∈ polls, q.ok s.params.respPollLimit ∧ q.acmd41.r1 ≠ 0x00#8)
    (hlast : last.ok s.params.respPollLimit) (hr1 : last.acmd41.r1 = 0x00#8)
    (hans : s.answers = polls.flatMap PollReply.answers ++ (last.answers ++ rest)) :
    ∃ t, InitComesTo (.cmd .iCmd58 (.tx 0)) (polls.flatMap PollReply.events ++ last.events) rest s t ∧ t.legacy = s.legacy ∧
      t.cntPoll = .written (polls.length + 1) := by
  have hiterations := pollPassed_iterations hseq hcnt hcs (by omega) hpolls hans
  generalize hrun : runFor (polls.map PollReply.count).sum s = u at hiterations
  obtain ⟨frame, crc, r1, cntResp, hu⟩ := hiterations
  have hpassed : InitComesTo (.cmd .iCmd55 (.tx 0)) (polls.flatMap PollReply.events) (last.answers ++ rest) s u :=
    ⟨reaches_of_runFor hrun, by subst hu; constructor <;> rfl, by subst hu; rfl, by subst hu; rfl, by subst hu; rfl⟩
  have hparams := hpassed.scratch.params
  obtain ⟨t, hend, hlegacy, hcount⟩ := initComesTo_lastIteration hpassed.seq (hpassed.scratch.csLevel.trans hcs)
    (hparams ▸ hlast) hr1 hpassed.answers
  refine ⟨t, initComesTo_trans hpassed hend, hlegacy.trans (by subst hu; rfl), hcount.trans ?_⟩
  subst hu
  exact congrArg Reg.written (Nat.add_comm 1 polls.length)

/-- From CMD0 to CMD58, on a card that answers as the script says (R100 to R103). -/
theorem initComesTo_cmd58_of_script {x : InitScript} {rest : List Answer} {s : State} (hseq : s.seq = .cmd .iCmd0 (.tx 0))
    (hcs : s.csLevel = .low) (hlegacy : s.legacy = .written false) (hok : x.ok s.params)
    (hans : s.answers = x.cmd0.answers ++ (x.cmd8.answers ++ (bytesAnswered x.tail ++
      (x.notReady.flatMap PollReply.answers ++ (x.last.answers ++ rest))))) :
    ∃ t, InitComesTo (.cmd .iCmd58 (.tx 0)) (x.cmd0.events .low 0#6 0#32 ++ (x.cmd8.events .low 8#6 cmd8Arg ++
        fillerReads .low x.tail) ++ (x.notReady.flatMap PollReply.events ++ x.last.events)) rest s t ∧
      t.legacy = .written x.legacy ∧ t.cntPoll = .written (x.notReady.length + 1) := by
  obtain ⟨t0, h0, hlegacy0⟩ := initComesTo_cmd8 hseq hcs hok.cmd0 hok.cmd0R1 hans
  obtain ⟨t1, h1, hlegacy1, hcnt1⟩ := initComesTo_poll h0.seq (h0.scratch.csLevel.trans hcs) (hlegacy0.trans hlegacy)
    (h0.scratch.params ▸ hok.cmd8) hok.tail h0.answers
  have h01 := initComesTo_trans h0 h1
  have hparams := h01.scratch.params
  obtain ⟨t2, h2, hlegacy2, hcnt2⟩ := initComesTo_cmd58 h1.seq hcnt1 (h01.scratch.csLevel.trans hcs) (hparams ▸ hok.iterations)
    (hparams ▸ hok.notReady) (hparams ▸ hok.last) hok.lastR1 h1.answers
  exact ⟨t2, initComesTo_trans h01 h2, hlegacy2.trans hlegacy1, hcnt2⟩

/-! ## From CMD58 to the end -/

/-- The capacity class of a script whose OCR begins with this byte. -/
theorem capacity_eq {x : InitScript} {o0 : Byte} {os : List Byte} (h : x.ocr = o0 :: os) : x.capacity = capacityOf x.legacy o0 := by
  rw [InitScript.capacity, h]; rfl

/-- The answered CMD58 and the OCR, up to where the capacity has been decided (R105, R106). -/
theorem reaches_decided {a : Reply} {legacy : Bool} {o0 o1 o2 o3 : Byte} {rest : List Answer} {s : State}
    (hseq : s.seq = .cmd .iCmd58 (.tx 0)) (hlegacy : s.legacy = .written legacy) (hok : a.ok s.params.respPollLimit)
    (hr1 : a.r1 = 0x00#8) (hans : s.answers = a.answers ++ (bytesAnswered [o0, o1, o2, o3] ++ rest)) :
    Reaches s ({ tailReceived o0 o1 o2 o3 rest (commandReturned .iCmd58 a (bytesAnswered [o0, o1, o2, o3] ++ rest) s) with
      cap := capacityOf legacy o0 }.goto (if capacityOf legacy o0 = Cap.standard then .cmd .iCmd16 (.tx 0) else .iEnd)) := by
  have hreturned := reaches_answered hseq hok hans (if_pos (readyResponse_iff.mpr hr1))
  exact reaches_trans hreturned (reaches_of_runFor ((runFor_ocr rfl rfl).trans (initDecideCapacity_ocr hlegacy)))

/-- From CMD58 to the end of INIT, through CMD16 for a standard-capacity card (R105 to R108). -/
theorem reaches_ready {x : InitScript} {rest : List Answer} {s : State} (hseq : s.seq = .cmd .iCmd58 (.tx 0))
    (hcs : s.csLevel = .low) (hlegacy : s.legacy = .written x.legacy) (hok : x.cmd58.ok s.params.respPollLimit)
    (hr1 : x.cmd58.r1 = 0x00#8) (hocr : x.ocr.length = 4)
    (hcmd16 : x.capacity = .standard → x.cmd16.ok s.params.respPollLimit ∧ x.cmd16.r1 = 0x00#8)
    (hans : s.answers = x.cmd58.answers ++ (bytesAnswered x.ocr ++ ((if x.capacity = .standard then x.cmd16.answers else []) ++ rest))) :
    Reaches s { s with
      csLevel := .high
      initState := .ready
      cap := x.capacity
      result := .written { status := .ok, step := none, busyExhausted := false, value := none }
      crc := .written (if x.capacity = .standard then frameCrc 16#6 cmd16Arg else frameCrc 58#6 0#32)
      frame := .written (if x.capacity = .standard then frameOf 16#6 cmd16Arg else frameOf 58#6 0#32)
      r1 := .written 0x00#8
      tail := { t0 := .written (x.ocr.getD 0 0#8), t1 := .written (x.ocr.getD 1 0#8), t2 := .written (x.ocr.getD 2 0#8),
                t3 := .written (x.ocr.getD 3 0#8) }
      cntResp := .written ((if x.capacity = .standard then x.cmd16.delay else x.cmd58.delay) + 1)
      seq := .idle
      answers := rest
      history := .ended (okResult false none) :: .pin .high :: ((x.cmd58.events .low 58#6 0#32 ++ fillerReads .low x.ocr ++
        (if x.capacity = .standard then x.cmd16.events .low 16#6 cmd16Arg else [])).reverse ++ s.history) } := by
  obtain ⟨o0, o1, o2, o3, hx⟩ : ∃ o0 o1 o2 o3, x.ocr = [o0, o1, o2, o3] := by
    match x.ocr, hocr with
    | [o0, o1, o2, o3], _ => exact ⟨o0, o1, o2, o3, rfl⟩
  rw [hx] at hans
  have hdecided := reaches_decided hseq hlegacy hok hr1 hans
  rw [← capacity_eq hx] at hdecided
  by_cases hstd : x.capacity = .standard
  · obtain ⟨hok16, hr16⟩ := hcmd16 hstd
    rw [hstd, if_pos rfl, if_pos rfl] at hdecided
    have h16 := reaches_trans hdecided (reaches_answered (c := .iCmd16) rfl hok16 rfl (if_pos (readyResponse_iff.mpr hr16)))
    have hend := reaches_trans h16 (reaches_tick rfl (tick_iEnd rfl))
    rw [hstd, if_pos rfl, if_pos rfl, if_pos rfl, if_pos rfl, hx]
    convert hend using 1
    simp [initEnd, complete, endOperation, okResult, commandReturned, tailReceived, csSet, State.log, State.goto, Issuer.index,
      Issuer.arg, hcs, hr16]
  · rw [if_neg hstd, if_neg hstd] at hdecided
    have hend := reaches_trans hdecided (reaches_tick rfl (tick_iEnd rfl))
    rw [if_neg hstd, if_neg hstd, if_neg hstd, if_neg hstd, hx]
    convert hend using 1
    simp [initEnd, complete, endOperation, okResult, commandReturned, tailReceived, csSet, State.log, State.goto, Issuer.index,
      Issuer.arg, hcs, hr1]

/-! ## The number of exchanges -/

theorem exchangeCount_eq_length {es : List Event} (h : ∀ e ∈ es, e.isExchange = true) : exchangeCount es = es.length := by
  rw [exchangeCount, List.filter_eq_self.mpr h]

theorem exchangeCount_fillerReads (cs : Level) (bs : List Byte) : exchangeCount (fillerReads cs bs) = bs.length := by
  rw [exchangeCount_eq_length fun e he => ?_, fillerReads, List.length_map]
  obtain ⟨b, -, rfl⟩ := List.mem_map.mp he
  rfl

/-- Each command of a script makes the exchanges of its reply (R96). -/
theorem exchangeCount_reply {limit : Nat} (cs : Level) (index : CmdIndex) (arg : Word32) {a : Reply} (h : a.ok limit) :
    exchangeCount (a.events cs index arg) = a.count := by
  obtain ⟨hjunk, -, -⟩ := h
  have hall : ∀ e ∈ a.events cs index arg, e.isExchange = true := by
    intro e he
    rw [Reply.events, List.mem_append, List.mem_append, ← List.map_uncurry_zip_eq_zipWith] at he
    obtain (he | he) | he := he
    · obtain ⟨c, -, rfl⟩ := List.mem_map.mp he; rfl
    · rw [List.eq_of_mem_replicate he]; rfl
    · rw [List.mem_singleton.mp he]; rfl
  rw [exchangeCount_eq_length hall, Reply.events, Reply.count]
  simp [frameBytes_length, hjunk]

theorem exchangeCount_poll {limit : Nat} {q : PollReply} (h : q.ok limit) : exchangeCount q.events = q.count := by
  obtain ⟨h55, h41⟩ := h
  rw [PollReply.events, exchangeCount_append, exchangeCount_reply _ _ _ h55, exchangeCount_reply _ _ _ h41, PollReply.count]

theorem exchangeCount_polls {limit : Nat} {polls : List PollReply} (h : ∀ q ∈ polls, q.ok limit) :
    exchangeCount (polls.flatMap PollReply.events) = (polls.map PollReply.count).sum := by
  induction polls with
  | nil => rfl
  | cons q qs ih =>
    obtain ⟨hq, hqs⟩ := List.forall_mem_cons.mp h
    rw [List.flatMap_cons, exchangeCount_append, exchangeCount_poll hq, ih hqs, List.map_cons, List.sum_cons]

/-- The number of exchanges of a whole INIT (R112). -/
theorem exchangeCount_init {p : Params} {x : InitScript} (h : x.ok p) : exchangeCount x.events = x.count := by
  have h16 : exchangeCount (if x.capacity = .standard then x.cmd16.events .low 16#6 cmd16Arg else []) =
      if x.capacity = .standard then x.cmd16.count else 0 := by
    split
    · next hstd => exact exchangeCount_reply _ _ _ (h.cmd16 hstd).1
    · rfl
  have hbegin : exchangeCount [.begun .init, .pin .high] = 0 := rfl
  have hselect : exchangeCount [.pin .low] = 0 := rfl
  have hend : exchangeCount [.pin .high, .ended (okResult false none)] = 0 := rfl
  rw [InitScript.events, InitScript.selectedEvents, InitScript.count]
  simp only [exchangeCount_append, exchangeCount_fillerReads, exchangeCount_reply _ _ _ h.cmd0, exchangeCount_reply _ _ _ h.cmd8,
    exchangeCount_polls fun q hq => (h.notReady q hq).1, exchangeCount_poll h.last, exchangeCount_reply _ _ _ h.cmd58, h16, hbegin,
    hselect, hend, h.ocr]
  omega

end Sys2Proof.Machine

namespace Sys2Proof.Proofs

open Sys2Proof Sys2Proof.Machine

/-- Settles O31: the four reads, and the decision by the legacy flag and TAIL[0][6]. -/
theorem ocrAndLegacyDecideTheCapacity : Obligations.OcrAndLegacyDecideTheCapacity := by
  intro s legacy o0 o1 o2 o3 rest hseq hlegacy hans
  rw [runFor_ocr hseq hans, initDecideCapacity_ocr hlegacy]
  simp only [capacityOf, ocrCapacityBit_iff]
  split <;> rfl

/-- Settles O27: the power-up clocking, the commands up to CMD58, and from there the end, each from where the run before it comes
to. -/
theorem initEndsReadyOnAGoodCard : Obligations.InitEndsReadyOnAGoodCard := by
  intro s x rest hidle hok hans
  refine ⟨?_, exchangeCount_init hok⟩
  rw [InitScript.answers] at hans
  simp only [List.append_assoc] at hans
  have hselected := reaches_selected (s := initEntry (s.log (.begun .init))) rfl hok.dummy hans
  obtain ⟨t, ⟨hreaches, hscratch, hseq, htans, hhist⟩, hlegacy, hcnt⟩ :=
    initComesTo_cmd58_of_script (s := selectedAt x.dummy _ (initEntry (s.log (.begun .init)))) (rest := x.cmd58.answers ++
      (bytesAnswered x.ocr ++ ((if x.capacity = .standard then x.cmd16.answers else []) ++ rest))) rfl rfl rfl hok rfl
  have hend := reaches_ready (rest := rest) hseq hscratch.csLevel hlegacy (hscratch.params ▸ hok.cmd58) hok.cmd58R1 hok.ocr
    (hscratch.params ▸ hok.cmd16) htans
  rw [exec_init_idle hidle, runToIdle_of_reaches (reaches_trans hselected (reaches_trans hreaches hend)) rfl]
  obtain ⟨-, -, -, -, hbuf, hcntToken, hcntBusy, hdraws, hrequests, hparams⟩ := hscratch
  simp [hbuf, hcntToken, hcntBusy, hdraws, hrequests, hparams, hlegacy, hcnt, hhist, selectedAt, initEntry, State.log, State.goto,
    InitScript.events, InitScript.selectedEvents, okResult, hidle]

end Sys2Proof.Proofs

/-!
PROOFS, what one step of the framer can do, for any card: it goes on with one exchange more, or its issuer takes over, or the operation
ends with an error. From it: SEND_COMMAND always completes (O15).
-/

/-! ## What steps leave alone -/

namespace Sys2Proof.Machine

/-- The state with everything cleared that a command's framer writes, the inputs it takes among it (R80). -/
def framerCleared (s : State) : State :=
  { s with
    crc := State.reset.crc
    frame := State.reset.frame
    r1 := State.reset.r1
    cntResp := State.reset.cntResp
    seq := .idle
    history := []
    answers := []
    draws := 0 }

theorem framerCleared_xfer (out : Byte) (s : State) : framerCleared (xfer out s) = framerCleared s := by simp [framerCleared]

theorem csLevel_of_framerCleared {s t : State} (h : framerCleared t = framerCleared s) : t.csLevel = s.csLevel := by
  simpa [framerCleared] using congrArg State.csLevel h

theorem params_of_framerCleared {s t : State} (h : framerCleared t = framerCleared s) : t.params = s.params := by
  simpa [framerCleared] using congrArg State.params h

theorem exchangesAt_nil (cs : Level) : exchangesAt cs [] := List.forall_mem_nil _

theorem exchangesAt_append {cs : Level} {es fs : List Event} (hes : exchangesAt cs es) (hfs : exchangesAt cs fs) :
    exchangesAt cs (es ++ fs) := fun e he => (List.mem_append.mp he).elim (hes e) (hfs e)

theorem exchangesAt_reverse {cs : Level} {es : List Event} (h : exchangesAt cs es) : exchangesAt cs es.reverse :=
  fun e he => h e (List.mem_reverse.mp he)

theorem exchangesAt_xferEvent (cs : Level) (out : Byte) (a : Answer) : exchangesAt cs [xferEvent cs out a] := by
  intro e he
  obtain rfl := List.mem_singleton.mp he
  cases a with
  | byte b => exact .inl ⟨out, b, rfl⟩
  | fault => exact .inr ⟨out, rfl⟩

theorem exchangeCount_of_exchangesAt {cs : Level} {es : List Event} (h : exchangesAt cs es) : exchangeCount es = es.length := by
  refine exchangeCount_eq_length fun e he => ?_
  obtain ⟨out, b, rfl⟩ | ⟨out, rfl⟩ := h e he
  · rfl
  · rfl

/-! ## One step of the framer -/

/-- The sequencer stands in the command of c after n exchanges, and the register its position reads has a value (R80 to R84). -/
def FramerPos (c : Issuer) (n : Nat) (s : State) : Prop :=
  (∃ k : Fin 6, s.seq = .cmd c (.tx k) ∧ k.val = n ∧ (n ≠ 0 → s.frame.isWritten = true)) ∨
    (s.seq = .cmd c .rx ∧ ∃ j, s.cntResp = .written j ∧ n = 5 + j ∧ 1 ≤ j)

/-- From s to t the framer of a command made one exchange, and wrote nothing but its own registers. -/
structure FramerExchanged (s t : State) : Prop where
  cleared : framerCleared t = framerCleared s
  history : ∃ e, exchangesAt s.csLevel [e] ∧ t.history = e :: s.history

theorem framerExchanged_xfer (out : Byte) (s : State) : FramerExchanged s (xfer out s) :=
  ⟨framerCleared_xfer out s, _, exchangesAt_xferEvent _ _ _, xfer_history out s⟩

/-- Register writes of the framer after its exchange. -/
theorem framerExchanged_of_written {s t u : State} (h : FramerExchanged s t) (hcleared : framerCleared u = framerCleared t)
    (hhist : u.history = t.history) : FramerExchanged s u := by
  obtain ⟨hst, e, he, hnew⟩ := h
  exact ⟨hcleared.trans hst, e, he, hhist.trans hnew⟩

/-- What a step of the framer can do after n exchanges of its command (R82 to R84, R135). -/
inductive FramerStep (c : Issuer) (n : Nat) (s : State) : State → Prop where
  | goesOn {t : State} (hpos : FramerPos c (n + 1) t) (hlimit : n + 1 ≤ 6 ∨ n + 1 ≤ 5 + s.params.respPollLimit)
      (hexchanged : FramerExchanged s t) (hr1 : t.r1 = s.r1) : FramerStep c n s t
  | fails {u : State} {k : Status} (hkind : k = .transportFailure ∨ k = c.timeoutStatus) (hexchanged : FramerExchanged s u)
      (hr1 : u.r1 = s.r1) : FramerStep c n s (raise c.operation k c.tag u)
  | responds {u : State} {b : Byte} (hb : b ≠ 0xFF#8) (hexchanged : FramerExchanged s u) (hr1 : u.r1 = .written b) :
      FramerStep c n s (afterResponse c b u)

theorem framerSend_step {c : Issuer} {k : Fin 6} {s u : State} (hframe : u.frame.isWritten = true)
    (hcleared : framerCleared u = framerCleared s) (hhist : u.history = s.history) (hr1 : u.r1 = s.r1) :
    FramerStep c k.val s (framerSend c k u) := by
  obtain ⟨f, hf⟩ := Reg.isWritten_iff.mp hframe
  have hcs : u.csLevel = s.csLevel := csLevel_of_framerCleared hcleared
  have hexchanged : FramerExchanged s (xfer (f.byte k) u) := by
    obtain ⟨hx, e, he, hnew⟩ := framerExchanged_xfer (f.byte k) u
    exact ⟨hx.trans hcleared, e, hcs ▸ he, hnew.trans (congrArg _ hhist)⟩
  have hr1' : (xfer (f.byte k) u).r1 = s.r1 := (xfer_r1 ..).trans hr1
  rw [framerSend, State.readFrame, hf, readRegister_written, withRead_ok]
  refine exchange_spec (fun b _ => ?_) (fun _ => .fails (.inl rfl) hexchanged hr1')
  split
  · next hk =>
    have hpos : FramerPos c (k.val + 1) ((xfer (f.byte k) u).goto (.cmd c (.tx ⟨k.val + 1, hk⟩))) :=
      .inl ⟨⟨k.val + 1, hk⟩, rfl, rfl, fun _ => by rw [goto_frame, xfer_frame, hframe]⟩
    exact .goesOn hpos (.inl (by omega)) (framerExchanged_of_written hexchanged rfl rfl) hr1'
  · next hk =>
    have hpos : FramerPos c (k.val + 1) ({ xfer (f.byte k) u with cntResp := .written 1 }.goto (.cmd c .rx)) :=
      .inr ⟨rfl, 1, rfl, by omega, Nat.le_refl 1⟩
    exact .goesOn hpos (.inl (by omega)) (framerExchanged_of_written hexchanged rfl rfl) hr1'

theorem framerRx_step {c : Issuer} {j : Nat} {s : State} (hseq : s.seq = .cmd c .rx) (hj : s.cntResp = .written j) :
    FramerStep c (5 + j) s (framerRx c s) := by
  have hexchanged := framerExchanged_xfer filler s
  rw [framerRx, State.readCntResp, hj, readRegister_written, withRead_ok]
  refine exchange_spec (fun b _ => ?_) (fun _ => .fails (.inl rfl) hexchanged (xfer_r1 ..))
  split
  · next hb => exact .responds (bne_iff_ne.mp hb) (framerExchanged_of_written hexchanged rfl rfl) rfl
  · split
    · next hlt =>
      rw [xfer_params] at hlt
      have hpos : FramerPos c (5 + j + 1) { xfer filler s with cntResp := .written (j + 1) } :=
        .inr ⟨(xfer_seq filler s).trans hseq, j + 1, rfl, by omega, by omega⟩
      exact .goesOn hpos (.inr (by omega)) (framerExchanged_of_written hexchanged rfl rfl) (xfer_r1 filler s)
    · exact .fails (.inr rfl) hexchanged (xfer_r1 ..)

/-- Inside a command a step goes on, ends the operation with an error, or gives the issuer its response (R82 to R84, R135). -/
theorem tick_framerStep {c : Issuer} {n : Nat} {s : State} (h : FramerPos c n s) : FramerStep c n s (tick s) := by
  obtain ⟨k, hseq, rfl, hframe⟩ | ⟨hseq, j, hj, rfl, -⟩ := h
  · rw [tick_tx hseq, framerTx]
    split
    · exact framerSend_step rfl rfl rfl rfl
    · next hk => exact framerSend_step (hframe hk) rfl rfl rfl
  · rw [tick_rx hseq]
    exact framerRx_step hseq hj

/-! ## SEND_COMMAND on any card -/

/-- Within the SEND_COMMAND of an issuer that began in s: n exchanges so far, and R1 as it was. -/
structure Sending (c : Issuer) (s : State) (n : Nat) (t : State) : Prop where
  pos     : FramerPos c n t
  limit   : n ≤ 6 ∨ n ≤ 5 + s.params.respPollLimit
  cleared : framerCleared t = framerCleared s
  r1      : t.r1 = s.r1
  history : ∃ new, t.history = new ++ s.history ∧ exchangeCount new = n

/-- The last exchange of a SEND_COMMAND that began in s has been made, within its limit (R96). -/
structure Sent (s t : State) : Prop where
  cleared : framerCleared t = framerCleared s
  history : ∃ new, t.history = new ++ s.history ∧ exchangeCount new ≤ 6 + s.params.respPollLimit

/-- How a SEND_COMMAND that began in s ends: with the response, or with an error and R1 as it was (R80, R133). -/
def SendEnds (s t : State) : Prop :=
  ∃ u result, Sent s u ∧ t = endOperation result u ∧
    ((∃ r, r ≠ 0xFF#8 ∧ u.r1 = .written r ∧ result = okResult false (some (.r1 r))) ∨
      (u.r1 = s.r1 ∧ (result = errorResult .timeoutResponse .sHostCmd ∨ result = errorResult .transportFailure .sHostCmd)))

theorem sending_history {c : Issuer} {n : Nat} {s t u : State} (h : Sending c s n t) (hexchanged : FramerExchanged t u) :
    ∃ new, u.history = new ++ s.history ∧ exchangeCount new = n + 1 := by
  obtain ⟨new, hnew, hcount⟩ := h.history
  obtain ⟨-, e, he, hu⟩ := hexchanged
  refine ⟨[e] ++ new, by rw [hu, hnew]; rfl, ?_⟩
  rw [exchangeCount_append, exchangeCount_of_exchangesAt he, hcount, List.length_singleton, Nat.add_comm]

theorem sent_of_sending {c : Issuer} {n : Nat} {s t u : State} (h : Sending c s n t) (hlimit : 1 ≤ s.params.respPollLimit)
    (hexchanged : FramerExchanged t u) : Sent s u := by
  obtain ⟨new, hnew, hcount⟩ := sending_history h hexchanged
  have hn := h.limit
  exact ⟨hexchanged.cleared.trans h.cleared, new, hnew, by omega⟩

/-- A step of a SEND_COMMAND goes on with it or ends it. -/
theorem sending_tick {index : CmdIndex} {arg : Word32} {n : Nat} {s t : State} (h : Sending (.host index arg) s n t)
    (hlimit : 1 ≤ s.params.respPollLimit) : Sending (.host index arg) s (n + 1) (tick t) ∨ SendEnds s (tick t) := by
  have hparams : t.params = s.params := params_of_framerCleared h.cleared
  have hstep := tick_framerStep h.pos
  generalize tick t = v at hstep ⊢
  cases hstep with
  | goesOn hpos hmore hexchanged hr1 =>
    rw [hparams] at hmore
    exact .inl ⟨hpos, hmore, hexchanged.cleared.trans h.cleared, hr1.trans h.r1, sending_history h hexchanged⟩
  | fails hkind hexchanged hr1 =>
    refine .inr ⟨_, _, sent_of_sending h hlimit hexchanged, rfl, .inr ⟨hr1.trans h.r1, ?_⟩⟩
    obtain rfl | rfl := hkind
    · exact .inr rfl
    · exact .inl rfl
  | responds hb hexchanged hr1 => exact .inr ⟨_, _, sent_of_sending h hlimit hexchanged, rfl, .inl ⟨_, hb, hr1, rfl⟩⟩

theorem sendEnds_idle {s t : State} (h : SendEnds s t) : t.seq = .idle := by
  obtain ⟨u, result, -, rfl, -⟩ := h
  rfl

theorem framerPos_running {c : Issuer} {n : Nat} {s : State} (h : FramerPos c n s) : s.seq.running = true := by
  obtain ⟨k, hseq, -⟩ | ⟨hseq, -⟩ := h
  · rw [hseq]; rfl
  · rw [hseq]; rfl

/-- Every SEND_COMMAND ends (R80, R150). -/
theorem runToIdle_sendEnds {index : CmdIndex} {arg : Word32} {s : State} (hseq : s.seq = .cmd (.host index arg) (.tx 0))
    (hlimit : 1 ≤ s.params.respPollLimit) : SendEnds s (runToIdle s) := by
  have hstart : Sending (.host index arg) s 0 s :=
    ⟨.inl ⟨0, hseq, rfl, fun h => absurd rfl h⟩, .inl (by omega), rfl, rfl, [], rfl, rfl⟩
  have hrun : (∃ n, Sending (.host index arg) s n (runToIdle s)) ∨ SendEnds s (runToIdle s) := by
    refine runFor_keeps (P := fun t => (∃ n, Sending (.host index arg) s n t) ∨ SendEnds s t) (fun t ht => ?_) _ (.inl ⟨0, hstart⟩)
    obtain ⟨n, hn⟩ | hend := ht
    · exact (sending_tick hn hlimit).imp (fun h => ⟨n + 1, h⟩) id
    · exact .inr ((tick_idle (sendEnds_idle hend)).symm ▸ hend)
  obtain ⟨n, hn⟩ | hend := hrun
  · have hstops := runToIdle_stops s
    rw [framerPos_running hn.pos] at hstops
    cases hstops
  · exact hend

end Sys2Proof.Machine

namespace Sys2Proof.Proofs

open Sys2Proof Sys2Proof.Machine

/-- Settles O15: a SEND_COMMAND goes on or ends at every step (`sending_tick`), and every run stops. -/
theorem sendCommandAlwaysCompletes : Obligations.SendCommandAlwaysCompletes := by
  intro s index arg hidle hlimit
  obtain ⟨u, result, ⟨hcleared, new, hnew, hcount⟩, hend, hresult⟩ :=
    runToIdle_sendEnds (s := (s.log (.begun (.sendCommand index arg))).goto (.cmd (.host index arg) (.tx 0))) rfl hlimit
  have hexec : exec (.sendCommand index arg) s = .next (endOperation result u) := by
    rw [exec, execSendCommand, request_idle _ _ hidle, hend]
  simp only [framerCleared, State.mk.injEq, true_and] at hcleared
  obtain ⟨hcs, hinit, hcap, -, hlegacy, htail, hbuf, hpoll, htoken, hbusy, hrequests, hparams⟩ := hcleared
  refine ⟨_, .ended result :: new, hexec, rfl, congrArg _ hnew, hcount, ?_, hcs, hinit, hcap, hlegacy, htail, hbuf, hpoll, htoken,
    hbusy, hrequests, hparams⟩
  obtain ⟨r, hne, hr1, rfl⟩ | ⟨hr1, rfl | rfl⟩ := hresult
  · exact .inl ⟨r, hne, hr1, rfl⟩
  · exact .inr ⟨hr1, .inl rfl⟩
  · exact .inr ⟨hr1, .inr rfl⟩

end Sys2Proof.Proofs

/-!
PROOFS, an operation with the card selected, for any card: every step stays inside the operation, or ends it by an error or at its end
(`Outcome`, `tick_outcome`), so every run ends it. From it READ_BLOCK and WRITE_BLOCK complete (O36, O44), and their chip-select envelope
(O45).
-/

/-! ## What holds while the card is selected -/

namespace Sys2Proof.Machine

/-- The state with everything cleared that the steps of an operation write while the card is selected. CRC7 never selects it. -/
def selectedCleared (op : Operation) (s : State) : State :=
  match op with
  | .crc7 => framerCleared s
  | .sendCommand => framerCleared s
  | .init =>
    { framerCleared s with
      initState := .uninit
      cap := .undefined
      legacy := State.reset.legacy
      tail := State.reset.tail
      cntPoll := State.reset.cntPoll }
  | .readBlock => { framerCleared s with buf := [], cntToken := State.reset.cntToken }
  | .writeBlock => { framerCleared s with cntBusy := State.reset.cntBusy }

theorem selectedCleared_of_framerCleared (op : Operation) {s t : State} (h : framerCleared t = framerCleared s) :
    selectedCleared op t = selectedCleared op s := by
  cases op with
  | crc7 => exact h
  | sendCommand => exact h
  | init => simp only [selectedCleared, h]
  | readBlock => simp only [selectedCleared, h]
  | writeBlock => simp only [selectedCleared, h]

theorem selectedCleared_csLevel (op : Operation) (s : State) : (selectedCleared op s).csLevel = s.csLevel := by
  cases op <;> rfl

/-- From s to t an operation went on with the pin as it was: exchanges were made, no register of another operation was written, and BUF
kept its canonical form. -/
structure Inside (op : Operation) (s t : State) : Prop where
  cleared : selectedCleared op t = selectedCleared op s
  bufWf   : s.buf.wf = true → t.buf.wf = true
  history : ∃ new, exchangesAt s.csLevel new ∧ t.history = new ++ s.history

theorem inside_csLevel {op : Operation} {s t : State} (h : Inside op s t) : t.csLevel = s.csLevel := by
  rw [← selectedCleared_csLevel op, h.cleared, selectedCleared_csLevel]

theorem inside_trans {op : Operation} {s t u : State} (hst : Inside op s t) (htu : Inside op t u) : Inside op s u := by
  obtain ⟨new, hnew, hhist⟩ := hst.history
  obtain ⟨new', hnew', hhist'⟩ := htu.history
  refine ⟨htu.cleared.trans hst.cleared, fun h => htu.bufWf (hst.bufWf h), new' ++ new, ?_, ?_⟩
  · exact exchangesAt_append (inside_csLevel hst ▸ hnew') hnew
  · rw [hhist', hhist, List.append_assoc]

/-- Register writes of the operation itself. -/
theorem inside_of_written {op : Operation} {s t : State} (hcleared : selectedCleared op t = selectedCleared op s)
    (hbuf : s.buf.wf = true → t.buf.wf = true) (hhist : t.history = s.history) : Inside op s t :=
  ⟨hcleared, hbuf, [], exchangesAt_nil _, hhist⟩

theorem inside_goto (op : Operation) (s : State) (l : Seq) : Inside op s (s.goto l) :=
  inside_of_written (selectedCleared_of_framerCleared op rfl) id rfl

theorem inside_of_framerExchanged (op : Operation) {s t : State} (h : FramerExchanged s t) : Inside op s t := by
  obtain ⟨hcleared, e, he, hhist⟩ := h
  have hbuf : t.buf = s.buf := by simpa [framerCleared] using congrArg State.buf hcleared
  exact ⟨selectedCleared_of_framerCleared op hcleared, fun h => hbuf ▸ h, [e], he, hhist⟩

theorem inside_xfer (op : Operation) (out : Byte) (s : State) : Inside op s (xfer out s) :=
  inside_of_framerExchanged op (framerExchanged_xfer out s)

/-- The labels at which the card is selected (R110, R120, R126). -/
def Seq.selects : Seq → Bool
  | .cmd (.host _ _) _ => false
  | .cmd _ _ => true
  | .iCmd8Tail _ | .iOcr _ | .iEnd => true
  | .rbToken | .rbData _ | .rbCrc _ | .rbEnd => true
  | .wbGap _ | .wbToken | .wbData _ | .wbCrc _ | .wbResp | .wbBusy | .wbEnd _ => true
  | .idle | .cRun _ | .iDesel | .iDummy _ | .iSel | .rbSel _ | .wbSel _ | .stuck _ => false

/-- The registers that the issuer of a command or a later label reads have values (R38). -/
def issuerReads (c : Issuer) (s : State) : Prop :=
  match c with
  | .host _ _ => True
  | .iCmd0 | .iCmd8 | .iCmd58 => s.legacy.isWritten = true
  | .iCmd55 | .iAcmd41 => s.legacy.isWritten = true ∧ s.cntPoll.isWritten = true
  | .iCmd16 => s.cap ≠ .undefined
  | .rbCmd17 _ => s.buf.wf = true
  | .wbCmd24 _ => filled s.buf blockSize

/-- The registers that a label or a later one reads have values (R38), and INIT has a capacity class once it has decided (R106). -/
def labelReads (l : Seq) (s : State) : Prop :=
  match l with
  | .cmd c _ => (∃ n, FramerPos c n s) ∧ issuerReads c s
  | .iCmd8Tail k | .iOcr k => s.legacy.isWritten = true ∧ tailFilled s.tail k.val
  | .iEnd => s.cap ≠ .undefined
  | .rbToken => s.buf.wf = true ∧ s.cntToken.isWritten = true
  | .rbData k => s.buf.wf = true ∧ filled s.buf k.val
  | .rbCrc _ | .rbEnd => s.buf.wf = true ∧ filled s.buf blockSize
  | .wbGap _ | .wbToken | .wbData _ => filled s.buf blockSize
  | .wbBusy => s.cntBusy.isWritten = true
  | .wbCrc _ | .wbResp | .wbEnd _ => True
  | .idle | .cRun _ | .iDesel | .iDummy _ | .iSel | .rbSel _ | .wbSel _ | .stuck _ => True

/-- The state is at a label of the operation with the card selected, and all that is read from there on has a value. -/
structure AtLabel (op : Operation) (s : State) : Prop where
  operation : s.seq.operation = some op
  selects   : s.seq.selects = true
  reads     : labelReads s.seq s

/-- What an operation ends with, in the state before its CS_Set(High) (R108, R120, R126). -/
def endsWell (op : Operation) (s : State) (bx : Bool) (v : Option Value) : Prop :=
  match op with
  | .crc7 => False
  | .sendCommand => False
  | .init => s.initState = .ready ∧ s.cap ≠ .undefined ∧ bx = false ∧ v = none
  | .readBlock => bx = false ∧ ∃ data : List Byte, data.length = 512 ∧ v = some (.block data)
  | .writeBlock => v = none

/-- What can have become of an operation that was at s with the card selected. -/
inductive Outcome (op : Operation) (s : State) : State → Prop where
  | inside {t : State} (hinside : Inside op s t) (hat : AtLabel op t) : Outcome op s t
  | fails {u : State} {k : Status} {tag : StepTag} (hinside : Inside op s u) (hkind : mayEndWith op k = true) :
      Outcome op s (raise op k tag u)
  | ends {u : State} {bx : Bool} {v : Option Value} (hinside : Inside op s u) (hwell : endsWell op u bx v) :
      Outcome op s (complete bx v (csSet .high u))

theorem outcome_trans {op : Operation} {s t u : State} (hst : Inside op s t) (htu : Outcome op t u) : Outcome op s u := by
  cases htu with
  | inside hinside hat => exact .inside (inside_trans hst hinside) hat
  | fails hinside hkind => exact .fails (inside_trans hst hinside) hkind
  | ends hinside hwell => exact .ends (inside_trans hst hinside) hwell

theorem outcome_exchange {op : Operation} {tag : StepTag} {out : Byte} {use : Byte → State → State} {s : State}
    (hfault : mayEndWith op .transportFailure = true) (huse : ∀ b, Outcome op (xfer out s) (use b (xfer out s))) :
    Outcome op s (exchange op tag out use s) :=
  exchange_spec (fun b _ => outcome_trans (inside_xfer op out s) (huse b)) (fun _ => .fails (inside_xfer op out s) hfault)

theorem outcome_goto {op : Operation} {s : State} {l : Seq} (hop : l.operation = some op) (hsel : l.selects = true)
    (hreads : labelReads l (s.goto l)) : Outcome op s (s.goto l) :=
  .inside (inside_goto op s l) ⟨hop, hsel, hreads⟩

/-- An error that needs no exchange of its own. -/
theorem outcome_raise {op : Operation} {k : Status} (tag : StepTag) (s : State) (hkind : mayEndWith op k = true) :
    Outcome op s (raise op k tag s) :=
  .fails (inside_of_written rfl id rfl) hkind

/-! ## The response of a command -/

theorem framerPos_start (c : Issuer) (s : State) : FramerPos c 0 (s.goto (.cmd c (.tx 0))) :=
  .inl ⟨0, rfl, rfl, fun h => absurd rfl h⟩

theorem initEnterPoll_outcome {s : State} (hlegacy : s.legacy.isWritten = true) : Outcome .init s (initEnterPoll s) :=
  .inside (inside_of_written rfl id rfl) ⟨rfl, rfl, ⟨0, framerPos_start ..⟩, hlegacy, rfl⟩

theorem initAfterAcmd41_outcome {s : State} (r : Byte) (hlegacy : s.legacy.isWritten = true) (hcnt : s.cntPoll.isWritten = true) :
    Outcome .init s (initAfterAcmd41 r s) := by
  obtain ⟨n, hn⟩ := Reg.isWritten_iff.mp hcnt
  rw [initAfterAcmd41, State.readCntPoll, hn, readRegister_written, withRead_ok]
  split
  · exact outcome_goto rfl rfl ⟨⟨0, framerPos_start ..⟩, hlegacy⟩
  · split
    · exact .inside (inside_of_written rfl id rfl) ⟨rfl, rfl, ⟨0, framerPos_start ..⟩, hlegacy, rfl⟩
    · exact outcome_raise _ _ rfl

theorem readAfterCmd17_outcome {s : State} (r : Byte) (hwf : s.buf.wf = true) : Outcome .readBlock s (readAfterCmd17 r s) := by
  rw [readAfterCmd17]
  split
  · exact .inside (inside_of_written rfl id rfl) ⟨rfl, rfl, hwf, rfl⟩
  · exact outcome_raise _ _ rfl

theorem writeAfterCmd24_outcome {s : State} (r : Byte) (hbuf : filled s.buf blockSize) :
    Outcome .writeBlock s (writeAfterCmd24 r s) := by
  rw [writeAfterCmd24]
  split
  · split
    · exact outcome_goto rfl rfl hbuf
    · exact outcome_goto rfl rfl hbuf
  · exact outcome_raise _ _ rfl

/-- What the issuer of a wire command does with its response (R86 to R93). -/
theorem afterResponse_outcome {c : Issuer} {s : State} (r : Byte) (hsel : (Seq.cmd c .rx).selects = true) (hreads : issuerReads c s) :
    Outcome c.operation s (afterResponse c r s) := by
  cases c with
  | host index arg => cases hsel
  | iCmd0 =>
    rw [afterResponse, initAfterCmd0]
    split
    · exact outcome_goto rfl rfl ⟨⟨0, framerPos_start ..⟩, hreads⟩
    · exact outcome_raise _ _ rfl
  | iCmd8 =>
    rw [afterResponse, initAfterCmd8]
    split
    · have hset : Inside .init s { s with legacy := .written true } := inside_of_written rfl id rfl
      exact outcome_trans hset (initEnterPoll_outcome rfl)
    · exact outcome_goto rfl rfl ⟨hreads, nofun⟩
  | iCmd55 => exact outcome_goto rfl rfl ⟨⟨0, framerPos_start ..⟩, hreads⟩
  | iAcmd41 =>
    obtain ⟨hlegacy, hcnt⟩ := hreads
    exact initAfterAcmd41_outcome r hlegacy hcnt
  | iCmd58 =>
    rw [afterResponse, initAfterCmd58]
    split
    · exact outcome_goto rfl rfl ⟨hreads, nofun⟩
    · exact outcome_raise _ _ rfl
  | iCmd16 =>
    rw [afterResponse, initAfterCmd16]
    split
    · exact outcome_goto rfl rfl hreads
    · exact outcome_raise _ _ rfl
  | rbCmd17 a => exact readAfterCmd17_outcome r hreads
  | wbCmd24 a => exact writeAfterCmd24_outcome r hreads

theorem issuerReads_of_framerCleared {c : Issuer} {s t : State} (h : framerCleared t = framerCleared s) (hreads : issuerReads c s) :
    issuerReads c t := by
  simp only [framerCleared, State.mk.injEq, true_and] at h
  obtain ⟨-, -, hcap, -, hlegacy, -, hbuf, hpoll, -⟩ := h
  simpa only [issuerReads, hcap, hlegacy, hbuf, hpoll] using hreads

/-- Every error of a command is one that R133 allows its operation. -/
theorem mayEndWith_framer (c : Issuer) {k : Status} (h : k = .transportFailure ∨ k = c.timeoutStatus) :
    mayEndWith c.operation k = true := by
  obtain rfl | rfl := h
  · cases c <;> rfl
  · cases c <;> rfl

theorem selects_cmd (c : Issuer) (f g : Framer) : (Seq.cmd c f).selects = (Seq.cmd c g).selects := by
  cases c <;> rfl

theorem framerPos_seq {c : Issuer} {n : Nat} {s : State} (h : FramerPos c n s) : ∃ f, s.seq = .cmd c f := by
  obtain ⟨k, hseq, -⟩ | ⟨hseq, -⟩ := h
  · exact ⟨_, hseq⟩
  · exact ⟨_, hseq⟩

/-- A step inside a wire command (R80). -/
theorem command_outcome {c : Issuer} {n : Nat} {s : State} (hsel : (Seq.cmd c .rx).selects = true) (hpos : FramerPos c n s)
    (hreads : issuerReads c s) : Outcome c.operation s (tick s) := by
  have hstep := tick_framerStep hpos
  generalize tick s = t at hstep ⊢
  cases hstep with
  | goesOn hpos' hlimit hexchanged hr1 =>
    obtain ⟨f, hseq⟩ := framerPos_seq hpos'
    refine .inside (inside_of_framerExchanged _ hexchanged) ⟨?_, ?_, ?_⟩
    · rw [hseq, operation_cmd]
    · rw [hseq, ← hsel]; exact selects_cmd ..
    · rw [hseq]
      exact ⟨⟨_, hpos'⟩, issuerReads_of_framerCleared hexchanged.cleared hreads⟩
  | fails hkind hexchanged hr1 => exact .fails (inside_of_framerExchanged _ hexchanged) (mayEndWith_framer c hkind)
  | responds hb hexchanged hr1 =>
    exact outcome_trans (inside_of_framerExchanged _ hexchanged)
      (afterResponse_outcome _ hsel (issuerReads_of_framerCleared hexchanged.cleared hreads))

/-! ## The other labels -/

/-- One more byte of TAIL has a value. -/
theorem tailFilled_set {t : Tail} {k : Fin 4} (b : Byte) (h : tailFilled t k.val) : tailFilled (t.set k b) (k.val + 1) := by
  intro j hj
  by_cases hjk : j = k
  · rw [hjk, tail_get_set_same]; rfl
  · rw [tail_get_set_other t b hjk]
    have hne : j.val ≠ k.val := fun h => hjk (Fin.ext h)
    exact h j (by omega)

theorem tailFilled_get {t : Tail} {n : Nat} (h : tailFilled t n) (k : Fin 4) (hk : k.val < n) : ∃ b, t.get k = .written b :=
  Reg.isWritten_iff.mp (h k hk)

theorem initCheckEcho_outcome {s : State} (hlegacy : s.legacy.isWritten = true) (htail : tailFilled s.tail 4) :
    Outcome .init s (initCheckEcho s) := by
  obtain ⟨t2, h2⟩ := tailFilled_get htail 2 (by decide)
  obtain ⟨t3, h3⟩ := tailFilled_get htail 3 (by decide)
  rw [initCheckEcho, State.readTail, State.readTail, h2, h3, readRegister_written, readRegister_written, withRead_ok, withRead_ok]
  split
  · exact initEnterPoll_outcome hlegacy
  · exact outcome_raise _ _ rfl

theorem capacityOf_ne_undefined (legacy : Bool) (b : Byte) : capacityOf legacy b ≠ .undefined := by
  rw [capacityOf]
  split
  · nofun
  · nofun

theorem initDecideCapacity_outcome {s : State} (hlegacy : s.legacy.isWritten = true) (htail : tailFilled s.tail 4) :
    Outcome .init s (initDecideCapacity s) := by
  obtain ⟨legacy, hl⟩ := Reg.isWritten_iff.mp hlegacy
  obtain ⟨t0, h0⟩ := tailFilled_get htail 0 (by decide)
  have hcap := capacityOf_ne_undefined legacy t0
  rw [initDecideCapacity, State.readLegacy, State.readTail, hl, h0, readRegister_written, readRegister_written, withRead_ok,
    withRead_ok]
  refine outcome_trans (t := { s with cap := capacityOf legacy t0 }) (inside_of_written rfl id rfl) ?_
  split
  · exact outcome_goto rfl rfl ⟨⟨0, framerPos_start ..⟩, hcap⟩
  · exact outcome_goto rfl rfl hcap

/-- A read into TAIL[k], and the next one or what follows the four (R102, R105). -/
theorem tailByte_outcome {k : Fin 4} {s : State} {tag : StepTag} {next : Fin 4 → Seq} {last : State → State}
    (hlegacy : s.legacy.isWritten = true) (htail : tailFilled s.tail k.val) (hop : ∀ j, (next j).operation = some .init)
    (hsel : ∀ j, (next j).selects = true)
    (hnext : ∀ j u, u.legacy.isWritten = true → tailFilled u.tail j.val → labelReads (next j) u)
    (hlast : ∀ u, u.legacy.isWritten = true → tailFilled u.tail 4 → Outcome .init u (last u)) :
    Outcome .init s (exchange .init tag filler
      (fun b s' =>
        if h : k.val + 1 < 4 then { s' with tail := s'.tail.set k b }.goto (next ⟨k.val + 1, h⟩)
        else last { s' with tail := s'.tail.set k b }) s) := by
  refine outcome_exchange rfl fun b => ?_
  have hlegacy' : (xfer filler s).legacy.isWritten = true := by rwa [xfer_legacy]
  have htail' : tailFilled ((xfer filler s).tail.set k b) (k.val + 1) := tailFilled_set b (by rwa [xfer_tail])
  refine outcome_trans (t := { xfer filler s with tail := (xfer filler s).tail.set k b }) (inside_of_written rfl id rfl) ?_
  split
  · exact outcome_goto (hop _) (hsel _) (hnext _ _ hlegacy' htail')
  · next hk =>
    have hk4 : k.val + 1 = 4 := by omega
    exact hlast _ hlegacy' (hk4 ▸ htail')

theorem readToken_outcome {s : State} (hseq : s.seq = .rbToken) (hwf : s.buf.wf = true) (hcnt : s.cntToken.isWritten = true) :
    Outcome .readBlock s (readToken s) := by
  obtain ⟨n, hn⟩ := Reg.isWritten_iff.mp hcnt
  have hwf' : (xfer filler s).buf.wf = true := by rwa [xfer_buf]
  rw [readToken, State.readCntToken, hn, readRegister_written, withRead_ok]
  refine outcome_exchange rfl fun b => ?_
  split
  · exact outcome_goto rfl rfl ⟨hwf', nofun⟩
  · split
    · have hseq' : (xfer filler s).seq = .rbToken := (xfer_seq ..).trans hseq
      exact .inside (inside_of_written rfl id rfl) ⟨by rw [hseq']; rfl, by rw [hseq']; rfl, by rw [hseq']; exact ⟨hwf', rfl⟩⟩
    · exact outcome_raise _ _ rfl

theorem readData_outcome {k : Fin 512} {s : State} (hwf : s.buf.wf = true) (hfilled : filled s.buf k.val) :
    Outcome .readBlock s (readData k s) := by
  refine outcome_exchange rfl fun b => ?_
  rw [xfer_buf, memWrite_inside _ _ k.isLt, withRead_ok]
  have hwf' : (s.buf.put k.val b).wf = true := put_wf hwf k.isLt
  have hfilled' : filled (s.buf.put k.val b) (k.val + 1) := filled_put hfilled
  refine outcome_trans (t := { xfer filler s with buf := s.buf.put k.val b }) (inside_of_written rfl (fun _ => hwf') rfl) ?_
  split
  · exact outcome_goto rfl rfl ⟨hwf', hfilled'⟩
  · next hk =>
    have hall : k.val + 1 = blockSize := by rw [blockSize]; omega
    exact outcome_goto rfl rfl ⟨hwf', hall ▸ hfilled'⟩

theorem readCrcByte_outcome {k : Fin 2} {s : State} (hwf : s.buf.wf = true) (hfilled : filled s.buf blockSize) :
    Outcome .readBlock s (readCrcByte k s) := by
  refine outcome_exchange rfl fun b => ?_
  have hreads : (xfer filler s).buf.wf = true ∧ filled (xfer filler s).buf blockSize := by rw [xfer_buf]; exact ⟨hwf, hfilled⟩
  split
  · exact outcome_goto rfl rfl hreads
  · exact outcome_goto rfl rfl hreads

theorem readEnd_outcome {s : State} (hwf : s.buf.wf = true) (hfilled : filled s.buf blockSize) : Outcome .readBlock s (readEnd s) := by
  obtain ⟨hpairwise, -⟩ := (wf_iff _).mp hwf
  obtain ⟨data, hdata⟩ := memReadRange_filled blockSize (o := 0) hpairwise fun k _ hk => hfilled k (by omega)
  obtain ⟨hlen, -⟩ := byteAt_of_memReadRange hdata
  rw [readEnd, hdata, withRead_ok]
  exact .ends (inside_of_written rfl id rfl) ⟨rfl, data, hlen, rfl⟩

theorem writeGap_outcome {k : Nat} {s : State} (hfilled : filled s.buf blockSize) : Outcome .writeBlock s (writeGap k s) := by
  refine outcome_exchange rfl fun b => ?_
  have hfilled' : filled (xfer filler s).buf blockSize := by rwa [xfer_buf]
  split
  · exact outcome_goto rfl rfl hfilled'
  · exact outcome_goto rfl rfl hfilled'

theorem writeToken_outcome {s : State} (hfilled : filled s.buf blockSize) : Outcome .writeBlock s (writeToken s) := by
  have hfilled' : filled (xfer dataToken s).buf blockSize := by rwa [xfer_buf]
  exact outcome_exchange rfl fun b => outcome_goto rfl rfl hfilled'

theorem writeData_outcome {k : Fin 512} {s : State} (hfilled : filled s.buf blockSize) : Outcome .writeBlock s (writeData k s) := by
  obtain ⟨out, hout⟩ := memRead_filled hfilled k.isLt (Nat.le_refl _)
  rw [writeData, hout, withRead_ok]
  refine outcome_exchange rfl fun b => ?_
  have hfilled' : filled (xfer out s).buf blockSize := by rwa [xfer_buf]
  split
  · exact outcome_goto rfl rfl hfilled'
  · exact outcome_goto rfl rfl trivial

theorem writeCrcByte_outcome {k : Fin 2} {s : State} : Outcome .writeBlock s (writeCrcByte k s) := by
  refine outcome_exchange rfl fun b => ?_
  by_cases hk : k.val + 1 < 2
  · rw [if_pos hk]; exact outcome_goto rfl rfl trivial
  · rw [if_neg hk]; exact outcome_goto rfl rfl trivial

theorem writeResponse_outcome {s : State} : Outcome .writeBlock s (writeResponse s) := by
  refine outcome_exchange rfl fun b => ?_
  split
  · exact .inside (inside_of_written rfl id rfl) ⟨rfl, rfl, rfl⟩
  · exact outcome_raise _ _ rfl

theorem writeBusy_outcome {s : State} (hseq : s.seq = .wbBusy) (hcnt : s.cntBusy.isWritten = true) :
    Outcome .writeBlock s (writeBusy s) := by
  obtain ⟨n, hn⟩ := Reg.isWritten_iff.mp hcnt
  rw [writeBusy, State.readCntBusy, hn, readRegister_written, withRead_ok]
  refine outcome_exchange rfl fun b => ?_
  split
  · exact outcome_goto rfl rfl trivial
  · split
    · have hseq' : (xfer filler s).seq = .wbBusy := (xfer_seq ..).trans hseq
      exact .inside (inside_of_written rfl id rfl) ⟨by rw [hseq']; rfl, by rw [hseq']; rfl, by rw [hseq']; exact rfl⟩
    · exact outcome_goto rfl rfl trivial

/-! ## Every step, and every run -/

/-- Every step with the card selected stays inside the operation or ends it. -/
theorem tick_outcome {op : Operation} {s : State} (h : AtLabel op s) : Outcome op s (tick s) := by
  obtain ⟨hop, hsel, hreads⟩ := h
  cases hseq : s.seq with
  | cmd c f =>
    rw [hseq] at hop hsel hreads
    rw [operation_cmd, Option.some.injEq] at hop
    obtain ⟨⟨n, hpos⟩, hissuer⟩ := hreads
    exact hop ▸ command_outcome ((selects_cmd c .rx f).trans hsel) hpos hissuer
  | iCmd8Tail k =>
    rw [hseq] at hop hreads; cases hop
    obtain ⟨hlegacy, htail⟩ := hreads
    rw [tick_cmd8Tail hseq]
    exact tailByte_outcome hlegacy htail (fun _ => rfl) (fun _ => rfl) (fun _ _ hl ht => ⟨hl, ht⟩) fun _ hl ht =>
      initCheckEcho_outcome hl ht
  | iOcr k =>
    rw [hseq] at hop hreads; cases hop
    obtain ⟨hlegacy, htail⟩ := hreads
    rw [tick_iOcr hseq]
    exact tailByte_outcome hlegacy htail (fun _ => rfl) (fun _ => rfl) (fun _ _ hl ht => ⟨hl, ht⟩) fun _ hl ht =>
      initDecideCapacity_outcome hl ht
  | iEnd =>
    rw [hseq] at hop hreads; cases hop
    rw [tick_iEnd hseq]
    exact .ends (u := { s with initState := .ready }) (inside_of_written rfl id rfl) ⟨rfl, hreads, rfl, rfl⟩
  | rbToken =>
    rw [hseq] at hop hreads; cases hop
    obtain ⟨hwf, hcnt⟩ := hreads
    rw [tick_rbToken hseq]
    exact readToken_outcome hseq hwf hcnt
  | rbData k =>
    rw [hseq] at hop hreads; cases hop
    obtain ⟨hwf, hfilled⟩ := hreads
    rw [tick_rbData hseq]
    exact readData_outcome hwf hfilled
  | rbCrc k =>
    rw [hseq] at hop hreads; cases hop
    obtain ⟨hwf, hfilled⟩ := hreads
    rw [tick_rbCrc hseq]
    exact readCrcByte_outcome hwf hfilled
  | rbEnd =>
    rw [hseq] at hop hreads; cases hop
    obtain ⟨hwf, hfilled⟩ := hreads
    rw [tick_rbEnd hseq]
    exact readEnd_outcome hwf hfilled
  | wbGap k => rw [hseq] at hop hreads; cases hop; rw [tick_wbGap hseq]; exact writeGap_outcome hreads
  | wbToken => rw [hseq] at hop hreads; cases hop; rw [tick_wbToken hseq]; exact writeToken_outcome hreads
  | wbData k => rw [hseq] at hop hreads; cases hop; rw [tick_wbData hseq]; exact writeData_outcome hreads
  | wbCrc k => rw [hseq] at hop; cases hop; rw [tick_wbCrc hseq]; exact writeCrcByte_outcome
  | wbResp => rw [hseq] at hop; cases hop; rw [tick_wbResp hseq]; exact writeResponse_outcome
  | wbBusy => rw [hseq] at hop hreads; cases hop; rw [tick_wbBusy hseq]; exact writeBusy_outcome hseq hreads
  | wbEnd bx =>
    rw [hseq] at hop; cases hop
    rw [tick_wbEnd hseq]
    exact .ends (inside_of_written rfl id rfl) rfl
  | _ => rw [hseq] at hsel; cases hsel

theorem outcome_tick {op : Operation} {s t : State} (h : Outcome op s t) : Outcome op s (tick t) := by
  cases h with
  | inside hinside hat => exact outcome_trans hinside (tick_outcome hat)
  | fails hinside hkind => rw [tick_idle (raise_seq ..)]; exact .fails hinside hkind
  | ends hinside hwell => rw [tick_idle (complete_seq ..)]; exact .ends hinside hwell

theorem running_of_selects {l : Seq} (h : l.selects = true) : l.running = true := by
  cases l with
  | idle => cases h
  | stuck f => cases h
  | _ => rfl

/-- How an operation ends that was at s with the card selected: with an error, or at its end (R133, R137). -/
inductive Ends (op : Operation) (s : State) : State → Prop where
  | fails {u : State} {k : Status} {tag : StepTag} (hinside : Inside op s u) (hkind : mayEndWith op k = true) :
      Ends op s (raise op k tag u)
  | ends {u : State} {bx : Bool} {v : Option Value} (hinside : Inside op s u) (hwell : endsWell op u bx v) :
      Ends op s (complete bx v (csSet .high u))

/-- Every operation with the card selected ends (R14, R150). -/
theorem runToIdle_ends {op : Operation} {s : State} (h : AtLabel op s) : Ends op s (runToIdle s) := by
  have hstart : Outcome op s s := .inside (inside_of_written rfl id rfl) h
  have hstops := runToIdle_stops s
  have hrun : Outcome op s (runToIdle s) := runFor_keeps (P := Outcome op s) (fun _ => outcome_tick) _ hstart
  generalize runToIdle s = t at hstops hrun ⊢
  cases hrun with
  | inside hinside hat =>
    rw [running_of_selects hat.selects] at hstops
    cases hstops
  | fails hinside hkind => exact .fails hinside hkind
  | ends hinside hwell => exact .ends hinside hwell

/-- The run from a step on is the run. -/
theorem runToIdle_tick {s t : State} (hrun : s.seq.running = true) (h : tick s = t) : runToIdle s = runToIdle t := by
  obtain ⟨n, hn⟩ := reaches_trans (reaches_tick hrun h) (reaches_of_runFor (n := operationBudget t.params) rfl)
  exact runToIdle_eq hn (runToIdle_stops t)

end Sys2Proof.Machine

/-! ## Block transfers -/

namespace Sys2Proof.Machine

/-- What the end of a transfer leaves: IDLE, deselected, the events of its last part, and a value or an error (R120, R126, R137). -/
theorem runToIdle_transfer {op : Operation} {s : State} (h : AtLabel op s) (hop : op = .readBlock ∨ op = .writeBlock) :
    ∃ u r, Inside op s u ∧ runToIdle s = endOperation r (csSet .high u) ∧
      ((∃ k tag, mayEndWith op k = true ∧ r = errorResult k tag) ∨ ∃ bx v, endsWell op u bx v ∧ r = okResult bx v) := by
  have hends := runToIdle_ends h
  generalize runToIdle s = t at hends ⊢
  cases hends with
  | @fails u k tag hinside hkind =>
    refine ⟨u, errorResult k tag, hinside, ?_, .inl ⟨k, tag, hkind, rfl⟩⟩
    obtain rfl | rfl := hop
    · rfl
    · rfl
  | ends hinside hwell => exact ⟨_, _, hinside, rfl, .inr ⟨_, _, hwell, rfl⟩⟩

/-- The state of a READ_BLOCK at CMD17, with the card selected (R117). -/
def readSelected (index a : Word32) (s : State) : State := readSelect a ((s.log (.begun (.readBlock index))).goto (.rbSel a))

/-- The state of a WRITE_BLOCK at CMD24, with its operand in BUF and the card selected (R121, R122). -/
def writeSelected (index a : Word32) (data : List Byte) (s : State) : State :=
  writeSelect a ({ s.log (.begun (.writeBlock index data)) with buf := cellsFrom 0 data }.goto (.wbSel a))

theorem readSelected_atLabel {index a : Word32} {s : State} (hwf : s.buf.wf = true) : AtLabel .readBlock (readSelected index a s) :=
  ⟨rfl, rfl, ⟨0, framerPos_start ..⟩, hwf⟩

theorem writeSelected_atLabel {index a : Word32} {data : List Byte} {s : State} (hdata : data.length = blockSize) :
    AtLabel .writeBlock (writeSelected index a data s) :=
  ⟨rfl, rfl, ⟨0, framerPos_start ..⟩, filled_cellsFrom hdata⟩

theorem exec_readBlock_selected {s : State} {index a : Word32} (hidle : s.seq = .idle) (ha : transferAddress index s = .ok a) :
    exec (.readBlock index) s = .next (runToIdle (readSelected index a s)) := by
  rw [exec_readBlock_address hidle ha, runToIdle_tick rfl (tick_rbSel rfl)]; rfl

theorem exec_writeBlock_selected {s : State} {index a : Word32} {data : List Byte} (hidle : s.seq = .idle)
    (ha : transferAddress index s = .ok a) (hdata : data.length = blockSize) :
    exec (.writeBlock index data) s = .next (runToIdle (writeSelected index a data s)) := by
  rw [exec_writeBlock_address hidle hdata ha, runToIdle_tick rfl (tick_wbSel rfl)]; rfl

/-- The events of a transfer, from where the card is selected to the end (R120, R126, R128). -/
theorem transfer_events {op : Operation} {s t u : State} {i : Instr} {r : Result} (h : Inside op t u) (hcs : t.csLevel = .low)
    (hhist : t.history = .pin .low :: .begun i :: s.history) :
    ∃ body, exchangesAt .low body ∧
      (endOperation r (csSet .high u)).events = s.events ++ [.begun i, .pin .low] ++ body ++ [.pin .high, .ended r] := by
  obtain ⟨new, hnew, hu⟩ := h.history
  rw [hcs] at hnew
  refine ⟨new.reverse, exchangesAt_reverse hnew, ?_⟩
  simp [State.events, hu, hhist]

end Sys2Proof.Machine

namespace Sys2Proof.Proofs

open Sys2Proof Sys2Proof.Machine

/-- Settles O36: from the selected card the run ends (`runToIdle_transfer`), and `Inside` is the frame. -/
theorem readBlockAlwaysCompletes : Obligations.ReadBlockAlwaysCompletes := by
  intro s index a hidle hready haddr hwf
  have ha := (transferAddress_ready index hidle hready).trans haddr
  obtain ⟨u, r, ⟨hcleared, hbufWf, -⟩, hend, hresult⟩ :=
    runToIdle_transfer (readSelected_atLabel (index := index) (a := a) hwf) (.inl rfl)
  simp only [selectedCleared, framerCleared, State.mk.injEq, true_and] at hcleared
  obtain ⟨-, hinit, hcap, -, hlegacy, htail, hpoll, hbusy, hrequests, hparams⟩ := hcleared
  refine ⟨_, (exec_readBlock_selected hidle ha).trans (congrArg _ hend), rfl, rfl, ?_, hinit, hcap, hlegacy, htail, hpoll, hbusy,
    hrequests, hparams, hbufWf hwf⟩
  obtain ⟨k, tag, hkind, rfl⟩ | ⟨bx, v, ⟨rfl, data, hlen, rfl⟩, rfl⟩ := hresult
  · exact .inr ⟨k, hkind, tag, rfl⟩
  · exact .inl ⟨data, hlen, rfl⟩

/-- Settles O44: as O36, with BUF in the frame. -/
theorem writeBlockAlwaysCompletes : Obligations.WriteBlockAlwaysCompletes := by
  intro s index a data hidle hready haddr hdata
  have ha := (transferAddress_ready index hidle hready).trans haddr
  obtain ⟨u, r, ⟨hcleared, -, -⟩, hend, hresult⟩ :=
    runToIdle_transfer (writeSelected_atLabel (index := index) (a := a) (s := s) hdata) (.inr rfl)
  simp only [selectedCleared, framerCleared, State.mk.injEq, true_and] at hcleared
  obtain ⟨-, hinit, hcap, -, hlegacy, htail, hbuf, hpoll, htoken, hrequests, hparams⟩ := hcleared
  refine ⟨_, (exec_writeBlock_selected hidle ha hdata).trans (congrArg _ hend), rfl, rfl, ?_, fun k => ?_, hinit, hcap, hlegacy,
    htail, hpoll, htoken, hrequests, hparams⟩
  · obtain ⟨k, tag, hkind, rfl⟩ | ⟨bx, v, rfl, rfl⟩ := hresult
    · exact .inr ⟨k, hkind, tag, rfl⟩
    · exact .inl ⟨bx, rfl⟩
  · have hbyte := byteAt_cellsFrom 0 k data
    rw [Nat.zero_add] at hbyte
    exact (congrArg (Memory.byteAt · k) hbuf).trans hbyte

/-- Settles O45: an accepted transfer has an address, and then its events are `transfer_events`. -/
theorem blockTransfersKeepTheCardSelected : Obligations.BlockTransfersKeepTheCardSelected := by
  rintro s t i hidle hwf (⟨index, rfl⟩ | ⟨index, data, rfl⟩) hexec
  · cases ha : transferAddress index s with
    | error r => simp [exec, execReadBlock, ha] at hexec
    | ok a =>
      obtain ⟨u, r, hinside, hend, -⟩ := runToIdle_transfer (readSelected_atLabel (index := index) (a := a) hwf) (.inl rfl)
      rw [exec_readBlock_selected hidle ha, hend] at hexec
      cases hexec
      exact ⟨r, transfer_events hinside rfl rfl⟩
  · by_cases hdata : data.length = blockSize
    · cases ha : transferAddress index s with
      | error r => simp [exec, execWriteBlock, hdata, ha] at hexec
      | ok a =>
        obtain ⟨u, r, hinside, hend, -⟩ :=
          runToIdle_transfer (writeSelected_atLabel (index := index) (a := a) (s := s) hdata) (.inr rfl)
        rw [exec_writeBlock_selected hidle ha hdata, hend] at hexec
        cases hexec
        exact ⟨r, transfer_events hinside rfl rfl⟩
    · simp [exec, execWriteBlock, hdata, hidle] at hexec

end Sys2Proof.Proofs

/-!
PROOFS, INIT on any card: the power-up clocking, which a fault ends or after which the card is selected, and from there the run of the
operation with the card selected. From it INIT completes (O28), and its chip-select envelope (O33).
-/

/-! ## The power-up clocking -/

namespace Sys2Proof.Machine

/-- From s to u the power-up clocking made these exchanges, the newest first, and wrote no register (R99). -/
structure Clocked (dummy : List Event) (s u : State) : Prop where
  completed : completedAt s.csLevel dummy
  cleared   : framerCleared u = framerCleared s
  history   : u.history = dummy ++ s.history

theorem clocked_rfl (s : State) : Clocked [] s s := ⟨List.forall_mem_nil _, rfl, rfl⟩

theorem clocked_trans {es fs : List Event} {s t u : State} (hst : Clocked es s t) (htu : Clocked fs t u) : Clocked (fs ++ es) s u where
  completed := fun e he =>
    (List.mem_append.mp he).elim (csLevel_of_framerCleared hst.cleared ▸ htu.completed e) (hst.completed e)
  cleared   := htu.cleared.trans hst.cleared
  history   := by rw [htu.history, hst.history, List.append_assoc]

/-- A dummy byte that is answered leads to the next one, or to the select (R99). -/
theorem clocked_dummy {n : Nat} {b : Byte} {s : State} (hseq : s.seq = .iDummy n) (hb : s.nextAnswer = .byte b) :
    Clocked [.xfer s.csLevel filler b] s (tick s) ∧ (tick s).seq = dummySeq s.params (n + 1) := by
  rw [tick_iDummy hseq, initDummy, exchange_byte hb]
  refine ⟨⟨?_, framerCleared_xfer filler s, xfer_history_byte filler hb⟩, by rw [goto_seq, xfer_params]; rfl⟩
  intro e he
  exact ⟨filler, b, List.mem_singleton.mp he⟩

/-- A dummy byte that faults ends INIT (R99, R135). -/
theorem tick_dummy_fault {n : Nat} {s : State} (hseq : s.seq = .iDummy n) (hfault : s.nextAnswer = .fault) :
    tick s = raise .init .transportFailure .sPowerup (xfer filler s) := by
  rw [tick_iDummy hseq, initDummy, exchange_fault hfault]

theorem runToIdle_idle {s : State} (h : s.seq = .idle) : runToIdle s = s := runToIdle_eq (n := 0) rfl (by rw [h]; rfl)

/-- m more dummy bytes: the card is to be selected after all of them, or the next exchange is the one that faults (R99, R135). -/
theorem runToIdle_dummies {m n : Nat} {s : State} (hseq : s.seq = dummySeq s.params n) (hm : n + m = s.params.powerupDummyBytes) :
    ∃ dummy u, Clocked dummy s u ∧
      ((dummy.length < m ∧ u.nextAnswer = .fault ∧ runToIdle s = raise .init .transportFailure .sPowerup (xfer filler u)) ∨
        (dummy.length = m ∧ u.seq = .iSel ∧ runToIdle s = runToIdle u)) := by
  induction m generalizing n s with
  | zero => exact ⟨[], s, clocked_rfl s, .inr ⟨rfl, hseq.trans (if_neg (by omega)), rfl⟩⟩
  | succ m ih =>
    have hdummy : s.seq = .iDummy n := hseq.trans (if_pos (by omega))
    have hrun : s.seq.running = true := by rw [hdummy]; rfl
    cases hans : s.nextAnswer with
    | fault =>
      refine ⟨[], s, clocked_rfl s, .inl ⟨Nat.succ_pos m, hans, ?_⟩⟩
      rw [runToIdle_tick hrun (tick_dummy_fault hdummy hans), runToIdle_idle (raise_seq ..)]
    | byte b =>
      obtain ⟨hclocked, hnext⟩ := clocked_dummy hdummy hans
      have hparams := params_of_framerCleared hclocked.cleared
      rw [runToIdle_tick hrun rfl]
      obtain ⟨dummy, u, hrest, hend⟩ := ih (n := n + 1) (s := tick s) (by rw [hnext, hparams]) (by rw [hparams]; omega)
      refine ⟨dummy ++ [.xfer s.csLevel filler b], u, clocked_trans hclocked hrest, ?_⟩
      rw [List.length_append, List.length_singleton]
      exact hend.imp (fun ⟨hlen, h⟩ => ⟨Nat.succ_lt_succ hlen, h⟩) (fun ⟨hlen, h⟩ => ⟨congrArg (· + 1) hlen, h⟩)

/-! ## INIT on any card -/

/-- The state of an INIT that began in s, after its deselect (R98, R99). -/
def initDeselected (s : State) : State := initDeselect (initEntry (s.log (.begun .init)))

theorem exec_init_deselected {s : State} (hidle : s.seq = .idle) : exec .init s = .next (runToIdle (initDeselected s)) := by
  rw [exec_init_idle hidle, runToIdle_tick rfl (tick_iDesel rfl)]; rfl

theorem legacy_of_framerCleared {s t : State} (h : framerCleared t = framerCleared s) : t.legacy = s.legacy := by
  simpa [framerCleared] using congrArg State.legacy h

/-- The selected card of an INIT whose power-up clocking came to u. -/
theorem initSelect_atLabel {dummy : List Event} {s u : State} (h : Clocked dummy (initDeselected s) u) :
    AtLabel .init (initSelect u) := by
  have hlegacy : u.legacy = .written false := legacy_of_framerCleared h.cleared
  exact ⟨rfl, rfl, ⟨0, framerPos_start ..⟩, congrArg Reg.isWritten hlegacy⟩

/-- INIT ends with a fault in its power-up clocking, or as an operation with the card selected ends (R99, R135, R137). -/
theorem exec_init_cases {s : State} (hidle : s.seq = .idle) :
    ∃ t dummy u, exec .init s = .next t ∧ Clocked dummy (initDeselected s) u ∧
      ((dummy.length < s.params.powerupDummyBytes ∧ u.nextAnswer = .fault ∧
          t = raise .init .transportFailure .sPowerup (xfer filler u)) ∨
        (dummy.length = s.params.powerupDummyBytes ∧ Ends .init (initSelect u) t)) := by
  obtain ⟨dummy, u, hclocked, hend⟩ :=
    runToIdle_dummies (s := initDeselected s) (n := 0) (dummySeq_zero s.params).symm (Nat.zero_add _)
  refine ⟨_, dummy, u, exec_init_deselected hidle, hclocked, ?_⟩
  obtain ⟨hlen, hfault, hrun⟩ | ⟨hlen, hseq, hrun⟩ := hend
  · exact .inl ⟨hlen, hfault, hrun⟩
  · refine .inr ⟨hlen, ?_⟩
    rw [hrun, runToIdle_tick (by rw [hseq]; rfl) (tick_iSel hseq)]
    exact runToIdle_ends (initSelect_atLabel hclocked)

/-- The registers INIT does not write are as they were. -/
def InitKeeps (s t : State) : Prop :=
  t.buf = s.buf ∧ t.cntToken = s.cntToken ∧ t.cntBusy = s.cntBusy ∧ t.requests = s.requests ∧ t.params = s.params

theorem initKeeps_of_cleared {s t : State} (h : selectedCleared .init t = selectedCleared .init s) : InitKeeps s t := by
  simp only [selectedCleared, framerCleared, State.mk.injEq, true_and] at h
  obtain ⟨-, -, hbuf, htoken, hbusy, hrequests, hparams⟩ := h
  exact ⟨hbuf, htoken, hbusy, hrequests, hparams⟩

theorem initKeeps_trans {s t u : State} (hst : InitKeeps s t) (htu : InitKeeps t u) : InitKeeps s u := by
  obtain ⟨hbuf, htoken, hbusy, hrequests, hparams⟩ := hst
  obtain ⟨hbuf', htoken', hbusy', hrequests', hparams'⟩ := htu
  exact ⟨hbuf'.trans hbuf, htoken'.trans htoken, hbusy'.trans hbusy, hrequests'.trans hrequests, hparams'.trans hparams⟩

theorem initKeeps_clocked {dummy : List Event} {s u : State} (h : Clocked dummy (initDeselected s) u) : InitKeeps s u := by
  have hkeeps : InitKeeps (initDeselected s) u := initKeeps_of_cleared (selectedCleared_of_framerCleared .init h.cleared)
  exact hkeeps

theorem initKeeps_selected {dummy : List Event} {s u v : State} (h : Clocked dummy (initDeselected s) u)
    (hinside : Inside .init (initSelect u) v) : InitKeeps s v := by
  have hkeeps : InitKeeps (initSelect u) v := initKeeps_of_cleared hinside.cleared
  exact initKeeps_trans (initKeeps_clocked h) hkeeps

/-- What INIT ends with: Ready with a class and status 0, or Failed and Undefined with an error R133 allows it (R108, R109). -/
def InitResult (t : State) : Prop :=
  (t.initState = .ready ∧ t.cap ≠ .undefined ∧
      t.result = .written { status := .ok, step := none, busyExhausted := false, value := none }) ∨
    (t.initState = .failed ∧ t.cap = .undefined ∧ ∃ k, mayEndWith .init k = true ∧ failedWith t.result k)

theorem initResult_raise {k : Status} (tag : StepTag) (s : State) (hkind : mayEndWith .init k = true) :
    InitResult (raise .init k tag s) := .inr ⟨rfl, rfl, k, hkind, tag, rfl⟩

/-- How INIT leaves the registers, wherever it ends. -/
theorem init_completes {s : State} (hidle : s.seq = .idle) :
    ∃ t, exec .init s = .next t ∧ t.seq = .idle ∧ t.csLevel = .high ∧ InitResult t ∧ InitKeeps s t := by
  obtain ⟨t, dummy, u, hexec, hclocked, ⟨-, -, rfl⟩ | ⟨-, hends⟩⟩ := exec_init_cases hidle
  · have hfaulted : InitKeeps u (xfer filler u) :=
      initKeeps_of_cleared (selectedCleared_of_framerCleared .init (framerCleared_xfer filler u))
    exact ⟨_, hexec, rfl, rfl, initResult_raise _ _ rfl, initKeeps_trans (initKeeps_clocked hclocked) hfaulted⟩
  · refine ⟨t, hexec, ?_⟩
    cases hends with
    | fails hinside hkind =>
      have hkeeps := initKeeps_selected hclocked hinside
      exact ⟨rfl, rfl, initResult_raise _ _ hkind, hkeeps⟩
    | ends hinside hwell =>
      obtain ⟨hready, hcap, rfl, rfl⟩ := hwell
      have hkeeps := initKeeps_selected hclocked hinside
      exact ⟨rfl, rfl, .inl ⟨hready, hcap, rfl⟩, hkeeps⟩

/-- The events of an INIT that a fault in the power-up clocking ended (R99, R135). -/
theorem powerUpFault_events {dummy : List Event} {s u : State} (h : Clocked dummy (initDeselected s) u)
    (hfault : u.nextAnswer = .fault) :
    (raise .init .transportFailure .sPowerup (xfer filler u)).events =
      s.events ++ [.begun .init, .pin .high] ++ dummy.reverse ++
        [.xferFault .high filler, .pin .high, .ended (errorResult .transportFailure .sPowerup)] := by
  have hcs : u.csLevel = .high := csLevel_of_framerCleared h.cleared
  have hhist : u.history = dummy ++ .pin .high :: .begun .init :: s.history := h.history
  simp [State.events, hhist, hfault, hcs, xferEvent]

/-- The events of an INIT that came to the selected card and made these exchanges there (R108 to R110). -/
theorem selected_events {dummy : List Event} {s u v t : State} {r : Result} (h : Clocked dummy (initDeselected s) u)
    (hinside : Inside .init (initSelect u) v) (hend : t.history = .ended r :: .pin .high :: v.history) :
    ∃ body, exchangesAt .low body ∧
      t.events = s.events ++ [.begun .init, .pin .high] ++ dummy.reverse ++ [.pin .low] ++ body ++ [.pin .high, .ended r] := by
  obtain ⟨new, hnew, hv⟩ := hinside.history
  have hhist : (initSelect u).history = .pin .low :: (dummy ++ .pin .high :: .begun .init :: s.history) := congrArg _ h.history
  refine ⟨new.reverse, exchangesAt_reverse hnew, ?_⟩
  simp [State.events, hend, hv, hhist]

theorem completedAt_reverse {cs : Level} {es : List Event} (h : completedAt cs es) : completedAt cs es.reverse :=
  fun e he => h e (List.mem_reverse.mp he)

end Sys2Proof.Machine

namespace Sys2Proof.Proofs

open Sys2Proof Sys2Proof.Machine

/-- Settles O28: `init_completes`. -/
theorem initAlwaysCompletes : Obligations.InitAlwaysCompletes := fun _ hidle => init_completes hidle

/-- Settles O33: the two ways of `exec_init_cases`, and the events of each. -/
theorem initKeepsTheCardSelected : Obligations.InitKeepsTheCardSelected := by
  intro s hidle
  obtain ⟨t, dummy, u, hexec, hclocked, hcases⟩ := exec_init_cases hidle
  have hdummy : completedAt .high dummy.reverse := completedAt_reverse hclocked.completed
  obtain ⟨hlen, hfault, rfl⟩ | ⟨hlen, hends⟩ := hcases
  · exact ⟨_, _, dummy.reverse, hexec, hdummy,
      .inl ⟨filler, by rwa [List.length_reverse], rfl, powerUpFault_events hclocked hfault⟩⟩
  · cases hends with
    | @fails v k tag hinside hkind =>
      obtain ⟨body, hbody, hevents⟩ := selected_events (t := raise .init k tag v) hclocked hinside rfl
      exact ⟨_, _, dummy.reverse, hexec, hdummy, .inr ⟨body, hbody, by rwa [List.length_reverse], hevents⟩⟩
    | @ends v bx value hinside hwell =>
      obtain ⟨body, hbody, hevents⟩ := selected_events (t := complete bx value (csSet .high v)) hclocked hinside rfl
      exact ⟨_, _, dummy.reverse, hexec, hdummy, .inr ⟨body, hbody, by rwa [List.length_reverse], hevents⟩⟩

end Sys2Proof.Proofs

/-!
PROOFS, INIT depends on the card alone (O32): two runs of INIT on the same answers stay alike. They agree in all that INIT's events and its
end come from, and at each label in the registers that the label or a later one reads before it writes them.
-/

/-! ## Alike states -/

namespace Sys2Proof.Machine

/-- The state with everything cleared that earlier operations left and INIT writes before it reads it, and the history. -/
def leftoverCleared (s : State) : State :=
  { State.reset with
    csLevel := s.csLevel
    initState := s.initState
    cap := s.cap
    legacy := s.legacy
    seq := s.seq
    answers := s.answers
    draws := s.draws
    params := s.params }

/-- Two states agree but for what earlier operations left, and have added the same events to these two histories. -/
def Alike (h k : List Event) (s u : State) : Prop :=
  leftoverCleared s = leftoverCleared u ∧ ∃ new, s.history = new ++ h ∧ u.history = new ++ k

/-- What two runs of INIT agree in at a label besides: the registers read there or later and not written in between. -/
def sameReads (l : Seq) (s u : State) : Prop :=
  match l with
  | .idle => s.result = u.result
  | .cmd c (.tx k) =>
    c.operation = .init ∧ (k.val ≠ 0 → s.frame = u.frame) ∧ (c = .iCmd55 ∨ c = .iAcmd41 → s.cntPoll = u.cntPoll)
  | .cmd c .rx => c.operation = .init ∧ s.cntResp = u.cntResp ∧ (c = .iCmd55 ∨ c = .iAcmd41 → s.cntPoll = u.cntPoll)
  | .iCmd8Tail n | .iOcr n => ∀ j : Fin 4, j.val < n.val → s.tail.get j = u.tail.get j
  | .iDesel | .iDummy _ | .iSel | .iEnd | .stuck _ => True
  | _ => False

/-- Two states of INIT from which the rest of INIT is the same. -/
def AlikeAt (h k : List Event) (s u : State) : Prop := Alike h k s u ∧ sameReads s.seq s u

theorem initDeselected_eq (s : State) :
    initDeselected s = (csSet .high (initEntry (s.log (.begun .init)))).goto (dummySeq s.params 0) := by
  rw [initDeselected, initDeselect, dummySeq_zero]; rfl

theorem sameReads_dummySeq (p : Params) (n : Nat) (s u : State) : sameReads (dummySeq p n) s u := by
  rw [dummySeq]
  split
  · trivial
  · trivial

section
variable {h k : List Event} {s u : State}

theorem alike_fields (hsu : Alike h k s u) :
    s.csLevel = u.csLevel ∧ s.initState = u.initState ∧ s.cap = u.cap ∧ s.legacy = u.legacy ∧ s.seq = u.seq ∧
      s.answers = u.answers ∧ s.draws = u.draws ∧ s.params = u.params := by
  simpa [leftoverCleared] using hsu.1

theorem alike_params (hsu : Alike h k s u) : s.params = u.params := by
  obtain ⟨-, -, -, -, -, -, -, hparams⟩ := alike_fields hsu
  exact hparams

theorem alike_seq (hsu : Alike h k s u) : s.seq = u.seq := by
  obtain ⟨-, -, -, -, hseq, -⟩ := alike_fields hsu
  exact hseq

theorem alike_legacy (hsu : Alike h k s u) : s.legacy = u.legacy := by
  obtain ⟨-, -, -, hlegacy, -⟩ := alike_fields hsu
  exact hlegacy

theorem alike_nextAnswer (hsu : Alike h k s u) : s.nextAnswer = u.nextAnswer := by
  obtain ⟨-, -, -, -, -, hans, hdraws, -⟩ := alike_fields hsu
  rw [State.nextAnswer, State.nextAnswer, hans, hdraws]

/-- The same events, and the same registers written with the same values. -/
theorem alike_of_same {t v : State} {es : List Event} (hsu : Alike h k s u) (hcleared : leftoverCleared t = leftoverCleared v)
    (hs : t.history = es ++ s.history) (hu : v.history = es ++ u.history) : Alike h k t v := by
  obtain ⟨-, new, hnew, hnew'⟩ := hsu
  exact ⟨hcleared, es ++ new, by rw [hs, hnew, List.append_assoc], by rw [hu, hnew', List.append_assoc]⟩

theorem alike_goto (l : Seq) (hsu : Alike h k s u) : Alike h k (s.goto l) (u.goto l) :=
  alike_of_same (es := []) hsu (congrArg (State.goto · l) hsu.1) rfl rfl

theorem alike_csSet (level : Level) (hsu : Alike h k s u) : Alike h k (csSet level s) (csSet level u) :=
  alike_of_same (es := [.pin level]) hsu (congrArg (fun t : State => { t with csLevel := level }) hsu.1) rfl rfl

theorem alike_xfer (out : Byte) (hsu : Alike h k s u) : Alike h k (xfer out s) (xfer out u) := by
  have hanswer := alike_nextAnswer hsu
  obtain ⟨hcs, hinit, hcap, hlegacy, hseq, hans, hdraws, hparams⟩ := alike_fields hsu
  refine alike_of_same (es := [xferEvent s.csLevel out s.nextAnswer]) hsu ?_ (xfer_history ..) ?_
  · simp [leftoverCleared, xfer_draws, hcs, hinit, hcap, hlegacy, hseq, hans, hdraws, hparams]
  · rw [hcs, hanswer]; exact xfer_history ..

theorem alike_endOperation (r : Result) (hsu : Alike h k s u) : Alike h k (endOperation r s) (endOperation r u) :=
  alike_of_same (es := [.ended r]) hsu (congrArg (State.goto · .idle) hsu.1) rfl rfl

theorem alikeAt_goto {l : Seq} (hsu : Alike h k s u) (hreads : sameReads l s u) : AlikeAt h k (s.goto l) (u.goto l) :=
  ⟨alike_goto l hsu, by cases l <;> exact hreads⟩

theorem alikeAt_raise (kind : Status) (tag : StepTag) (hsu : Alike h k s u) :
    AlikeAt h k (raise .init kind tag s) (raise .init kind tag u) := by
  have hexit : Alike h k (errorExit .init s) (errorExit .init u) :=
    alike_csSet .high (alike_of_same (es := []) hsu
      (congrArg (fun t : State => { t with initState := .failed, cap := .undefined }) hsu.1) rfl rfl)
  exact ⟨alike_endOperation _ hexit, rfl⟩

theorem alikeAt_exchange {tag : StepTag} {out : Byte} {use : Byte → State → State} (hsu : Alike h k s u)
    (huse : ∀ b, Alike h k (xfer out s) (xfer out u) → AlikeAt h k (use b (xfer out s)) (use b (xfer out u))) :
    AlikeAt h k (exchange .init tag out use s) (exchange .init tag out use u) := by
  have hanswer := alike_nextAnswer hsu
  have hx := alike_xfer out hsu
  cases hs : s.nextAnswer with
  | byte b => rw [exchange_byte hs, exchange_byte (hanswer ▸ hs)]; exact huse b hx
  | fault => rw [exchange_fault hs, exchange_fault (hanswer ▸ hs)]; exact alikeAt_raise _ _ hx

theorem alikeAt_withRead {α : Type} {v w : Except Fault α} {use use' : α → State → State} (hsu : Alike h k s u) (hv : v = w)
    (huse : ∀ a, AlikeAt h k (use a s) (use' a u)) : AlikeAt h k (withRead v use s) (withRead w use' u) := by
  subst hv
  cases v with
  | ok a => exact huse a
  | error f => exact ⟨alike_goto _ hsu, trivial⟩

/-! ## The framer -/

theorem initEnterPoll_alikeAt (hsu : Alike h k s u) : AlikeAt h k (initEnterPoll s) (initEnterPoll u) :=
  ⟨alike_goto _ hsu, rfl, fun hne => absurd rfl hne, fun _ => rfl⟩

/-- The first byte of a command that is not one of the poll's reads no register. -/
theorem alikeAt_command {c : Issuer} (hsu : Alike h k s u) (hop : c.operation = .init)
    (hcnt : c = .iCmd55 ∨ c = .iAcmd41 → s.cntPoll = u.cntPoll) :
    AlikeAt h k (s.goto (.cmd c (.tx 0))) (u.goto (.cmd c (.tx 0))) :=
  alikeAt_goto hsu ⟨hop, fun hne => absurd rfl hne, hcnt⟩

theorem initAfterAcmd41_alikeAt (r : Byte) (hsu : Alike h k s u) (hcnt : s.cntPoll = u.cntPoll) :
    AlikeAt h k (initAfterAcmd41 r s) (initAfterAcmd41 r u) := by
  rw [initAfterAcmd41, initAfterAcmd41]
  split
  · exact alikeAt_command hsu rfl nofun
  · refine alikeAt_withRead hsu (congrArg (readRegister .cntPoll) hcnt) fun n => ?_
    rw [congrArg Params.ocrPollLimit (alike_params hsu)]
    split
    · exact ⟨alike_goto _ hsu, rfl, fun hne => absurd rfl hne, fun _ => rfl⟩
    · exact alikeAt_raise _ _ hsu

theorem afterResponse_alikeAt {c : Issuer} (r : Byte) (hsu : Alike h k s u) (hop : c.operation = .init)
    (hcnt : c = .iCmd55 ∨ c = .iAcmd41 → s.cntPoll = u.cntPoll) : AlikeAt h k (afterResponse c r s) (afterResponse c r u) := by
  cases c with
  | iCmd0 =>
    rw [afterResponse, afterResponse, initAfterCmd0, initAfterCmd0]
    split
    · exact alikeAt_command hsu rfl nofun
    · exact alikeAt_raise _ _ hsu
  | iCmd8 =>
    rw [afterResponse, afterResponse, initAfterCmd8, initAfterCmd8]
    split
    · exact initEnterPoll_alikeAt
        (alike_of_same (es := []) hsu (congrArg (fun t : State => { t with legacy := .written true }) hsu.1) rfl rfl)
    · exact alikeAt_goto hsu nofun
  | iCmd55 => exact alikeAt_command hsu rfl fun _ => hcnt (.inl rfl)
  | iAcmd41 => exact initAfterAcmd41_alikeAt r hsu (hcnt (.inr rfl))
  | iCmd58 =>
    rw [afterResponse, afterResponse, initAfterCmd58, initAfterCmd58]
    split
    · exact alikeAt_goto hsu nofun
    · exact alikeAt_raise _ _ hsu
  | iCmd16 =>
    rw [afterResponse, afterResponse, initAfterCmd16, initAfterCmd16]
    split
    · exact alikeAt_goto hsu trivial
    · exact alikeAt_raise _ _ hsu
  | host index arg => cases hop
  | rbCmd17 a => cases hop
  | wbCmd24 a => cases hop

theorem framerSend_alikeAt {c : Issuer} {n : Fin 6} (hsu : Alike h k s u) (hop : c.operation = .init) (hframe : s.frame = u.frame)
    (hcnt : c = .iCmd55 ∨ c = .iAcmd41 → s.cntPoll = u.cntPoll) : AlikeAt h k (framerSend c n s) (framerSend c n u) := by
  refine alikeAt_withRead hsu (congrArg (readRegister .frame) hframe) fun f => ?_
  rw [hop]
  refine alikeAt_exchange hsu fun b hx => ?_
  have hcnt' : c = .iCmd55 ∨ c = .iAcmd41 → (xfer (f.byte n) s).cntPoll = (xfer (f.byte n) u).cntPoll := by simpa using hcnt
  split
  · exact alikeAt_goto hx ⟨hop, fun _ => by simpa using hframe, hcnt'⟩
  · exact ⟨alike_goto _ hx, hop, rfl, hcnt'⟩

theorem framerTx_alikeAt {c : Issuer} {n : Fin 6} (hsu : Alike h k s u) (hop : c.operation = .init)
    (hframe : n.val ≠ 0 → s.frame = u.frame) (hcnt : c = .iCmd55 ∨ c = .iAcmd41 → s.cntPoll = u.cntPoll) :
    AlikeAt h k (framerTx c n s) (framerTx c n u) := by
  rw [framerTx, framerTx]
  split
  · have hloaded : Alike h k (loadFrame c s) (loadFrame c u) := hsu
    exact framerSend_alikeAt hloaded hop rfl hcnt
  · next hn => exact framerSend_alikeAt hsu hop (hframe hn) hcnt

theorem framerRx_alikeAt {c : Issuer} (hsu : Alike h k s u) (hseq : s.seq = .cmd c .rx) (hop : c.operation = .init)
    (hresp : s.cntResp = u.cntResp) (hcnt : c = .iCmd55 ∨ c = .iAcmd41 → s.cntPoll = u.cntPoll) :
    AlikeAt h k (framerRx c s) (framerRx c u) := by
  refine alikeAt_withRead hsu (congrArg (readRegister .cntResp) hresp) fun j => ?_
  rw [hop]
  refine alikeAt_exchange hsu fun b hx => ?_
  have hcnt' : c = .iCmd55 ∨ c = .iAcmd41 → (xfer filler s).cntPoll = (xfer filler u).cntPoll := by simpa using hcnt
  have hseq' : (xfer filler s).seq = .cmd c .rx := (xfer_seq filler s).trans hseq
  rw [congrArg Params.respPollLimit (alike_params hx)]
  split
  · exact afterResponse_alikeAt _ hx hop hcnt'
  · split
    · exact ⟨hx, by rw [hseq']; exact ⟨hop, rfl, hcnt'⟩⟩
    · exact alikeAt_raise _ _ hx

/-! ## The other labels -/

/-- The two runs have the same bytes TAIL[0..n-1]. -/
def sameTail (n : Nat) (s u : State) : Prop := ∀ j : Fin 4, j.val < n → s.tail.get j = u.tail.get j

theorem sameTail_set {n : Fin 4} (b : Byte) {t v : Tail} (htail : ∀ j : Fin 4, j.val < n.val → t.get j = v.get j) :
    ∀ j : Fin 4, j.val < n.val + 1 → (t.set n b).get j = (v.set n b).get j := by
  intro j hj
  by_cases hjn : j = n
  · rw [hjn, tail_get_set_same, tail_get_set_same]
  · rw [tail_get_set_other t b hjn, tail_get_set_other v b hjn]
    have hne : j.val ≠ n.val := fun heq => hjn (Fin.ext heq)
    exact htail j (by omega)

theorem readTail_same (hsu : sameTail 4 s u) (j : Fin 4) : s.readTail j = u.readTail j :=
  congrArg (readRegister (.tail j)) (hsu j j.isLt)

theorem initCheckEcho_alikeAt (hsu : Alike h k s u) (htail : sameTail 4 s u) : AlikeAt h k (initCheckEcho s) (initCheckEcho u) := by
  refine alikeAt_withRead hsu (readTail_same htail 2) fun t2 => alikeAt_withRead hsu (readTail_same htail 3) fun t3 => ?_
  split
  · exact initEnterPoll_alikeAt hsu
  · exact alikeAt_raise _ _ hsu

theorem initDecideCapacity_alikeAt (hsu : Alike h k s u) (htail : sameTail 4 s u) :
    AlikeAt h k (initDecideCapacity s) (initDecideCapacity u) := by
  refine alikeAt_withRead hsu (congrArg (readRegister .legacy) (alike_legacy hsu)) fun legacy =>
    alikeAt_withRead hsu (readTail_same htail 0) fun t0 => ?_
  have hdecided : Alike h k { s with cap := capacityOf legacy t0 } { u with cap := capacityOf legacy t0 } :=
    alike_of_same (es := []) hsu (congrArg (fun t : State => { t with cap := capacityOf legacy t0 }) hsu.1) rfl rfl
  split
  · exact alikeAt_command hdecided rfl nofun
  · exact alikeAt_goto hdecided trivial

/-- A read into TAIL[n], and the next one or what follows the four (R102, R105). -/
theorem tailByte_alikeAt {n : Fin 4} {tag : StepTag} {next : Fin 4 → Seq} {last : State → State} (hsu : Alike h k s u)
    (htail : sameTail n.val s u) (hnext : ∀ j s' u', sameTail j.val s' u' → sameReads (next j) s' u')
    (hlast : ∀ s' u', Alike h k s' u' → sameTail 4 s' u' → AlikeAt h k (last s') (last u')) :
    AlikeAt h k
      (exchange .init tag filler (fun b s' =>
        if hn : n.val + 1 < 4 then { s' with tail := s'.tail.set n b }.goto (next ⟨n.val + 1, hn⟩)
        else last { s' with tail := s'.tail.set n b }) s)
      (exchange .init tag filler (fun b s' =>
        if hn : n.val + 1 < 4 then { s' with tail := s'.tail.set n b }.goto (next ⟨n.val + 1, hn⟩)
        else last { s' with tail := s'.tail.set n b }) u) := by
  refine alikeAt_exchange hsu fun b hx => ?_
  have hset := sameTail_set (n := n) (t := (xfer filler s).tail) (v := (xfer filler u).tail) b (by simpa [sameTail] using htail)
  have hread : Alike h k { xfer filler s with tail := (xfer filler s).tail.set n b }
      { xfer filler u with tail := (xfer filler u).tail.set n b } := hx
  split
  · exact alikeAt_goto hread (hnext _ _ _ hset)
  · next hn =>
    have hn4 : n.val + 1 = 4 := by omega
    rw [hn4] at hset
    exact hlast _ _ hread hset

/-- A step of two runs of INIT keeps them alike. -/
theorem tick_alikeAt (hat : AlikeAt h k s u) : AlikeAt h k (tick s) (tick u) := by
  obtain ⟨hsu, hreads⟩ := hat
  have hparams := alike_params hsu
  have hsame := alike_seq hsu
  cases hseq : s.seq with
  | idle => rw [tick_idle hseq, tick_idle (hsame ▸ hseq)]; exact ⟨hsu, hreads⟩
  | stuck f => rw [tick_stuck hseq, tick_stuck (hsame ▸ hseq)]; exact ⟨hsu, hreads⟩
  | cmd c f =>
    cases f with
    | tx n =>
      rw [hseq] at hreads
      obtain ⟨hop, hframe, hcnt⟩ := hreads
      rw [tick_tx hseq, tick_tx (hsame ▸ hseq)]
      exact framerTx_alikeAt hsu hop hframe hcnt
    | rx =>
      rw [hseq] at hreads
      obtain ⟨hop, hresp, hcnt⟩ := hreads
      rw [tick_rx hseq, tick_rx (hsame ▸ hseq)]
      exact framerRx_alikeAt hsu hseq hop hresp hcnt
  | iDesel =>
    rw [tick_iDesel hseq, tick_iDesel (hsame ▸ hseq), initDeselect, initDeselect, hparams, ← dummySeq_zero]
    exact alikeAt_goto (alike_csSet .high hsu) (sameReads_dummySeq ..)
  | iDummy n =>
    rw [tick_iDummy hseq, tick_iDummy (hsame ▸ hseq)]
    refine alikeAt_exchange hsu fun b hx => ?_
    rw [alike_params hx]
    exact alikeAt_goto hx (sameReads_dummySeq _ (n + 1) _ _)
  | iSel =>
    rw [tick_iSel hseq, tick_iSel (hsame ▸ hseq)]
    exact alikeAt_command (alike_csSet .low hsu) rfl nofun
  | iCmd8Tail n =>
    rw [hseq] at hreads
    rw [tick_cmd8Tail hseq, tick_cmd8Tail (hsame ▸ hseq)]
    exact tailByte_alikeAt hsu hreads (fun _ _ _ ht => ht) fun _ _ => initCheckEcho_alikeAt
  | iOcr n =>
    rw [hseq] at hreads
    rw [tick_iOcr hseq, tick_iOcr (hsame ▸ hseq)]
    exact tailByte_alikeAt hsu hreads (fun _ _ _ ht => ht) fun _ _ => initDecideCapacity_alikeAt
  | iEnd =>
    rw [tick_iEnd hseq, tick_iEnd (hsame ▸ hseq)]
    have hready : Alike h k { s with initState := .ready } { u with initState := .ready } :=
      alike_of_same (es := []) hsu (congrArg (fun t : State => { t with initState := .ready }) hsu.1) rfl rfl
    exact ⟨alike_endOperation _ (alike_csSet .high hready), rfl⟩
  | _ => rw [hseq] at hreads; cases hreads

theorem runFor_alikeAt (n : Nat) (hat : AlikeAt h k s u) : AlikeAt h k (runFor n s) (runFor n u) := by
  induction n generalizing s u with
  | zero => exact hat
  | succ n ih =>
    have hsame := alike_seq hat.1
    cases hrun : s.seq.running with
    | true => rw [runFor_running n hrun, runFor_running n (hsame ▸ hrun)]; exact ih (tick_alikeAt hat)
    | false => rw [runFor_stopped _ hrun, runFor_stopped _ (hsame ▸ hrun)]; exact hat

theorem runToIdle_alikeAt (hat : AlikeAt h k s u) : AlikeAt h k (runToIdle s) (runToIdle u) := by
  rw [runToIdle, runToIdle, alike_params hat.1]
  exact runFor_alikeAt _ hat

end

end Sys2Proof.Machine

namespace Sys2Proof.Proofs

open Sys2Proof Sys2Proof.Machine

/-- Settles O32: after the deselect the two runs are alike, and stay so (`runToIdle_alikeAt`) to where INIT ends. -/
theorem initDependsOnTheCardAlone : Obligations.InitDependsOnTheCardAlone := by
  intro s u hs hu hans hdraws hparams
  have hstart : AlikeAt s.history u.history (initDeselected s) (initDeselected u) := by
    have hdeselected : Alike s.history u.history (csSet .high (initEntry (s.log (.begun .init))))
        (csSet .high (initEntry (u.log (.begun .init)))) :=
      ⟨by simp [leftoverCleared, initEntry, hans, hdraws, hparams], [.pin .high, .begun .init], rfl, rfl⟩
    rw [initDeselected_eq, initDeselected_eq, hparams]
    exact alikeAt_goto hdeselected (sameReads_dummySeq ..)
  obtain ⟨t, ht, hidle, -⟩ := init_completes hs
  have hexec := exec_init_deselected hs
  obtain ⟨halike, hreads⟩ := runToIdle_alikeAt hstart
  rw [ht] at hexec
  cases hexec
  rw [hidle] at hreads
  obtain ⟨hcs, hinit, hcap, hlegacy, -, hans', hdraws', -⟩ := alike_fields halike
  obtain ⟨-, new, hnew, hnew'⟩ := halike
  exact ⟨_, _, new, ht, exec_init_deselected hu, hnew, hnew', hreads, hinit, hcap, hcs, hlegacy, hans', hdraws'⟩

end Sys2Proof.Proofs
